-- ==== Sys2Proof/Word.lean ====
section
/-! DEFINITION. The word types of the CORE (spec 00_scope.md R7, R10): bytes, 16-bit words, 12-bit addresses, nibbles. -/

namespace Sys2Proof

/-- A byte of memory, a general register or a timer (R7). -/
abbrev Byte := BitVec 8

/-- A 16-bit word: the opcode, I, PC, a stack entry (R7). -/
abbrev Word := BitVec 16

/-- A 12-bit immediate or address, NNN (R72). -/
abbrev Addr := BitVec 12

/-- A 4-bit field of the opcode: X, Y, N, or a key index (R72). -/
abbrev Nibble := BitVec 4

/-- One bit as a byte, 0 or 1: how VF receives a flag (R21). -/
def boolByte (b : Bool) : Byte := if b then 1 else 0

end Sys2Proof
end

