-- ==== Sys2Proof/Config.lean ====
section
/-! DEFINITION. The implementation parameters of spec 00_scope.md R8 and the free values of R9. Log entries 1, 3, 4, 10. -/

namespace Sys2Proof

/-- `QUIRK_SHIFT` (R8): 8XY6 and 8XYE shift Vx in place, or Vy into Vx. -/
inductive ShiftQuirk where
  | modern
  | cosmac
deriving DecidableEq, Repr

/-- `QUIRK_LOAD_STORE` (R8): FX55 and FX65 leave I, or set it to I + X + 1. -/
inductive LoadStoreQuirk where
  | leave
  | increment
deriving DecidableEq, Repr

/-- `QUIRK_CLIP` (R8): sprite pixels past the right or bottom edge wrap, or are clipped. -/
inductive ClipQuirk where
  | wrap
  | clip
deriving DecidableEq, Repr

/-- `VF_DEST_ORDER` (R8, R130): the order of the two writes of a flag-writing instruction. -/
inductive VfOrder where
  | flagThenResult
  | resultThenFlag
deriving DecidableEq, Repr

/-- `FONT` (R8, R56): 16 glyphs of 5 bytes, glyph d at addresses 5·d to 5·d + 4 (R55). -/
abbrev Font := Vector (Vector Byte 5) 16

/-- The parameters of R8, fixed for the life of a core instance (10_state.md, opening).
DESIGN CHOICE, safe (log entry 1): they ride in the machine's state, so that every claim holds for every choice of them. -/
structure Config where
  /-- `CYCLES_PER_TICK`, an integer at least 1 (R8, R101). -/
  cyclesPerTick : { n : Nat // 1 ≤ n }
  quirkShift : ShiftQuirk
  quirkLoadStore : LoadStoreQuirk
  quirkClip : ClipQuirk
  vfDestOrder : VfOrder
  font : Font
  /-- Does the core pulse the optional diagnostic output `sys_event` (R16, R110)? DESIGN CHOICE, safe (log entry 10). -/
  sysEvent : Bool
deriving DecidableEq, Repr

/-- Free value: the byte `rnd` of the n-th draw (R9, R15, R145: any value, under no law). Log entry 3. -/
opaque Config.rndDraw : Nat → Byte

/-- Free value: what the n-th draw says when FX0A must choose among several newly pressed keys
(R9, R163: any of them). Log entry 4. -/
opaque Config.keyDraw : Nat → Nat

end Sys2Proof
end

