-- ==== Sys2Proof/Machine/Params.lean ====
section
/-! DEFINITION. The default parameters of spec 00_scope.md R8 and the default font of 20_memory.md R56. -/

namespace Sys2Proof.Machine

/-- The default `FONT`: the sixteen glyphs of R56. UNVERIFIED, unsafe (log entry 7): the source does not give the bytes. -/
def defaultFont : Font := #v[
  #v[0xF0, 0x90, 0x90, 0x90, 0xF0], #v[0x20, 0x60, 0x20, 0x20, 0x70],
  #v[0xF0, 0x10, 0xF0, 0x80, 0xF0], #v[0xF0, 0x10, 0xF0, 0x10, 0xF0],
  #v[0x90, 0x90, 0xF0, 0x10, 0x10], #v[0xF0, 0x80, 0xF0, 0x10, 0xF0],
  #v[0xF0, 0x80, 0xF0, 0x90, 0xF0], #v[0xF0, 0x10, 0x20, 0x40, 0x40],
  #v[0xF0, 0x90, 0xF0, 0x90, 0xF0], #v[0xF0, 0x90, 0xF0, 0x10, 0xF0],
  #v[0xF0, 0x90, 0xF0, 0x90, 0x90], #v[0xE0, 0x90, 0xE0, 0x90, 0xE0],
  #v[0xF0, 0x80, 0x80, 0x80, 0xF0], #v[0xE0, 0x90, 0x90, 0x90, 0xE0],
  #v[0xF0, 0x80, 0xF0, 0x80, 0xF0], #v[0xF0, 0x80, 0xF0, 0x80, 0x80]]

/-- The defaults of R8. The sys_event option is the model's own (DESIGN CHOICE, safe, log entry 10). -/
def defaultConfig : Config where
  cyclesPerTick := ⟨1, Nat.le_refl 1⟩
  quirkShift := .modern
  quirkLoadStore := .leave
  quirkClip := .wrap
  vfDestOrder := .flagThenResult
  font := defaultFont
  sysEvent := true

end Sys2Proof.Machine
end

