-- ==== Sys2Proof/Syntax.lean ====
section
/-! DEFINITION. The 35 instructions of spec 30_encoding.md R74, one constructor per row of spec/opcode_table.json. -/

namespace Sys2Proof

/-- The index of a general register, 0 to 15: the X or Y field (R73; all 16 values legal). -/
abbrev RegIdx := Nibble

/-- The instructions (R74). Operand names are those of R72: `x`, `y` registers, `nn` byte, `nnn` address, `n` row count. -/
inductive Instr where
  /-- 00E0 `CLS` (R180). -/
  | cls
  /-- 00EE `RET` (R114). -/
  | ret
  /-- 0NNN `SYS addr` (R110); the words 00E0 and 00EE are not SYS (R75). -/
  | sys (nnn : Addr)
  /-- 1NNN `JP addr` (R112). -/
  | jp (nnn : Addr)
  /-- 2NNN `CALL addr` (R113). -/
  | call (nnn : Addr)
  /-- 3XNN `SE Vx, byte` (R120). -/
  | seByte (x : RegIdx) (nn : Byte)
  /-- 4XNN `SNE Vx, byte` (R121). -/
  | sneByte (x : RegIdx) (nn : Byte)
  /-- 5XY0 `SE Vx, Vy` (R122). -/
  | seReg (x y : RegIdx)
  /-- 6XNN `LD Vx, byte` (R132). -/
  | ldByte (x : RegIdx) (nn : Byte)
  /-- 7XNN `ADD Vx, byte` (R133). -/
  | addByte (x : RegIdx) (nn : Byte)
  /-- 8XY0 `LD Vx, Vy` (R134). -/
  | ldReg (x y : RegIdx)
  /-- 8XY1 `OR Vx, Vy` (R135). -/
  | orReg (x y : RegIdx)
  /-- 8XY2 `AND Vx, Vy` (R136). -/
  | andReg (x y : RegIdx)
  /-- 8XY3 `XOR Vx, Vy` (R137). -/
  | xorReg (x y : RegIdx)
  /-- 8XY4 `ADD Vx, Vy` (R138). -/
  | addReg (x y : RegIdx)
  /-- 8XY5 `SUB Vx, Vy` (R139). -/
  | subReg (x y : RegIdx)
  /-- 8XY6 `SHR Vx` (R140); y matters under `QUIRK_SHIFT = cosmac`. -/
  | shr (x y : RegIdx)
  /-- 8XY7 `SUBN Vx, Vy` (R141). -/
  | subnReg (x y : RegIdx)
  /-- 8XYE `SHL Vx` (R142); y matters under `QUIRK_SHIFT = cosmac`. -/
  | shl (x y : RegIdx)
  /-- 9XY0 `SNE Vx, Vy` (R123). -/
  | sneReg (x y : RegIdx)
  /-- ANNN `LD I, addr` (R150). -/
  | ldI (nnn : Addr)
  /-- BNNN `JP V0, addr` (R115). -/
  | jpV0 (nnn : Addr)
  /-- CXNN `RND Vx, byte` (R145). -/
  | rnd (x : RegIdx) (nn : Byte)
  /-- DXYN `DRW Vx, Vy, nibble` (R181). -/
  | drw (x y : RegIdx) (n : Nibble)
  /-- EX9E `SKP Vx` (R124). -/
  | skp (x : RegIdx)
  /-- EXA1 `SKNP Vx` (R125). -/
  | sknp (x : RegIdx)
  /-- FX07 `LD Vx, DT` (R160). -/
  | ldVxDt (x : RegIdx)
  /-- FX0A `LD Vx, K` (R161). -/
  | ldVxK (x : RegIdx)
  /-- FX15 `LD DT, Vx` (R164). -/
  | ldDtVx (x : RegIdx)
  /-- FX18 `LD ST, Vx` (R165). -/
  | ldStVx (x : RegIdx)
  /-- FX1E `ADD I, Vx` (R151). -/
  | addI (x : RegIdx)
  /-- FX29 `LD F, Vx` (R152). -/
  | ldF (x : RegIdx)
  /-- FX33 `LD B, Vx` (R153). -/
  | ldB (x : RegIdx)
  /-- FX55 `LD [I], Vx` (R154). -/
  | storeRegs (x : RegIdx)
  /-- FX65 `LD Vx, [I]` (R155). -/
  | loadRegs (x : RegIdx)
deriving DecidableEq, Repr

end Sys2Proof
end

