-- ==== Sys2Proof/Machine/State.lean ====
section
/-! DEFINITION. The machine's state as plain data: every register, memory and output of spec 10_state.md R20 to R39, the
ports of 00_scope.md R12 to R16, and the model's own bookkeeping. INVENTORY.md, '## State', lists it field by field. -/

namespace Sys2Proof.Machine

/-- The run state (R36). FAULT and STOPPED are final (R103). -/
inductive Status where
  | run
  | waitKey
  | fault
  | stopped
deriving DecidableEq, Repr

/-- The fault kinds of the record (R37, R202). -/
inductive FaultKind where
  | none
  | stackOverflow
  | stackUnderflow
  | illegalInstruction
  | hostUnavailable
deriving DecidableEq, Repr

/-- The frame buffer: 32 rows of 64 cells, `g[y][x]` (R33); a lit cell is `true`. -/
abbrev Grid := Vector (Vector Bool 64) 32

/-- Every cell 0. -/
def Grid.blank : Grid := Vector.replicate 32 (Vector.replicate 64 false)

/-- M as the list of the cells that differ from reset, addresses strictly rising (R50, R41). -/
abbrev Memory := List Host.Cell

/-- The host's input lines during one tick (R14, R15). -/
structure Ports where
  /-- `keys[15:0]`: the level of each logical key, 1 = pressed (R14). -/
  keys : BitVec 16
  /-- `shutdown`: a request to stop (R15, R209). -/
  shutdown : Bool
  /-- `host_fault`: the frame sink, input or clock is unusable (R15, R206). -/
  hostFault : Bool
deriving DecidableEq, Repr

/-- All lines at 0. -/
def Ports.idle : Ports := { keys := 0, shutdown := false, hostFault := false }

/-- The machine. -/
structure State where
  /-- The parameters of R8; no step changes them. -/
  cfg : Config
  /-- V[0] to V[15] (R20, R21). -/
  v : Vector Byte 16
  /-- I (R23). -/
  index : Word
  /-- PC (R24, R25). -/
  pc : Word
  /-- S[0] to S[15] (R26). -/
  stack : Vector Word 16
  /-- SP, the stack's depth (R27). -/
  sp : BitVec 8
  /-- DT (R31). -/
  dt : Byte
  /-- ST (R32). -/
  st : Byte
  /-- M (R50). -/
  mem : Memory
  /-- G (R33). -/
  grid : Grid
  /-- K, sampled at the start of the tick (R34, R91). -/
  keys : BitVec 16
  /-- `status` (R36). -/
  status : Status
  /-- `wait_x`, the X field of the pending FX0A (R38). -/
  waitX : RegIdx
  /-- `Kbase` (R38). -/
  kbase : BitVec 16
  /-- `fault_kind` (R37). -/
  faultKind : FaultKind
  /-- `fault_pc` (R37). -/
  faultPc : Word
  /-- `fault_opcode` (R37). -/
  faultOpcode : Word
  /-- Output `frame`, the published copy of G (R16, R39). -/
  frame : Grid
  /-- Output `sound_on` (R16, R39). -/
  soundOn : Bool
  /-- Input lines as the host drives them for the current tick (R14, R15). -/
  ports : Ports
  /-- Input lines of the ticks to come, the next tick's first; when none is left the lines keep their levels. DESIGN
  CHOICE, unsafe for a claim about a run that outlasts the list (log entry 5). -/
  portQueue : List Ports
  /-- Attempts of step 2 still to make in the tick under way (R90, R101); 0 at a tick boundary. The model's own. -/
  slotsLeft : Nat
  /-- How many draws have been taken: the argument of the free values (R9). The model's own. -/
  draws : Nat
  /-- Output `sys_event`: how many pulses it has given (R16, R110). DESIGN CHOICE, safe (log entry 10). -/
  sysPulses : Nat
deriving DecidableEq, Repr

/-- Why the model itself stops. The CORE's own faults are no such stop: they are the state FAULT (R99, R201). -/
inductive Fault where
  /-- Raised by CALL and RET when SP is above 16, where the stack has no entry. R27 says SP never is, and no run from
  reset gets there. Safe (log entry 8). -/
  | stackDepthOutOfRange
deriving DecidableEq, Repr

/-- Why an instruction has no meaning. -/
inductive Refusal where
  /-- Raised by an arm of `exec` for an instruction that has no meaning yet; no arm does. Safe. -/
  | notModelled (mnemonic : String)
deriving DecidableEq, Repr

/-- The machine right after reset with parameters `cfg` (R41, R220). The last six fields are not in R41's table: the
ports and the model's own fields start at rest (DESIGN CHOICE, unsafe, log entries 2, 3, 5 and 10). -/
def State.resetWith (cfg : Config) : State where
  cfg := cfg
  v := Vector.replicate 16 0
  index := 0x0000
  pc := 0x200
  stack := Vector.replicate 16 0
  sp := 0
  dt := 0
  st := 0
  mem := []
  grid := Grid.blank
  keys := 0
  status := .run
  waitX := 0
  kbase := 0
  faultKind := .none
  faultPc := 0
  faultOpcode := 0
  frame := Grid.blank
  soundOn := false
  ports := Ports.idle
  portQueue := []
  slotsLeft := 0
  draws := 0
  sysPulses := 0

/-- The machine right after reset, with the default parameters of R8. -/
def State.reset : State := State.resetWith defaultConfig

end Sys2Proof.Machine
end

