-- ==== Sys2Proof/Machine/Ops.lean ====
section
/-! DEFINITION. The named operations over registers, memory, stack and fault record (spec 00_scope.md R11, 10_state.md
R20 to R38, 20_memory.md R50 to R58, 40_execution_cycle.md R95 to R99, 60_exceptions.md R201). -/

namespace Sys2Proof.Machine

/-- How a step's outcome answers. -/
abbrev Result := Host.Outcome State Fault Refusal

/-- Goes on with the next state, if there is one. -/
def Result.andThen (o : Result) (k : State → Result) : Result :=
  match o with
  | .next s => k s
  | .fault r => .fault r
  | .refused r => .refused r

/-! ## Memory -/

/-- What a byte reads as that nothing has written since reset: the font at 0x000 to 0x04F, glyph d at 5·d to 5·d + 4
(R55, R56), and 0 elsewhere (R41). -/
def resetByte (font : Font) (a : Nat) : Byte :=
  if h : a < 80 then (font[a / 5]'(by omega))[a % 5]'(by omega) else 0

/-- The byte listed for an address. -/
def Memory.lookup : Memory → Nat → Option Byte
  | [], _ => none
  | c :: m, a => if c.1 = a then some c.2 else Memory.lookup m a

/-- The list after byte `b` is put at address `a`, where an unlisted `a` reads as `d`; it keeps the canonical form. -/
def Memory.insert (d : Byte) : Memory → Nat → Byte → Memory
  | [], a, b => if b = d then [] else [(a, b)]
  | c :: m, a, b =>
    if a < c.1 then (if b = d then c :: m else (a, b) :: c :: m)
    else if a = c.1 then (if b = d then m else (a, b) :: m)
    else c :: Memory.insert d m a b

/-- The canonical form: addresses of M, strictly rising, and no entry equal to what its address reads as unlisted. -/
def Memory.wf (font : Font) : Memory → Bool
  | [] => true
  | c :: m => decide (c.1 < 4096) && c.2 != resetByte font c.1 && m.all (fun e => decide (c.1 < e.1)) && Memory.wf font m

/-- `MemRead(a, 1)`: the byte M[a mod 4096] (R11, R51). Never faults and changes nothing (R58). -/
def readByte (s : State) (a : Nat) : Byte :=
  (Memory.lookup s.mem (a % 4096)).getD (resetByte s.cfg.font (a % 4096))

/-- `MemWrite(a, 1, b)`: M[a mod 4096] becomes `b`, and nothing else changes (R11, R51, R58). -/
def writeByte (s : State) (a : Nat) (b : Byte) : State :=
  { s with mem := Memory.insert (resetByte s.cfg.font (a % 4096)) s.mem (a % 4096) b }

/-- The bytes at `a`, `a + 1`, …, `n` of them (R61). -/
def readBytes (s : State) (a n : Nat) : List Byte := (List.range n).map fun k => readByte s (a + k)

/-- Bytes written at `a`, `a + 1`, … in ascending order (R61). -/
def writeBytes (s : State) (a : Nat) : List Byte → State
  | [] => s
  | b :: bs => writeBytes (writeByte s a b) (a + 1) bs

/-- `load(image)`: the host's port for the program image, before the first tick (R13, R222; log entry 13). -/
def loadImage (s : State) (image : List Byte) : State := writeBytes s 0x200 image

/-! ## Registers -/

/-- V[x] (R20). -/
def getV (s : State) (x : RegIdx) : Byte := s.v[x.toNat]'x.isLt

/-- V[x] becomes `b` (R20). -/
def setV (s : State) (x : RegIdx) (b : Byte) : State := { s with v := s.v.set x.toNat b x.isLt }

/-- V[k], V[k + 1], … become the bytes in turn; bytes past V[15] have no register and are not written (FX65 has none). -/
def setRegsFrom (s : State) (k : Nat) : List Byte → State
  | [] => s
  | b :: bs => setRegsFrom (if k < 16 then setV s (BitVec.ofNat 4 k) b else s) (k + 1) bs

/-- I becomes `w` (R23). -/
def setIndex (s : State) (w : Word) : State := { s with index := w }

/-- G becomes `g` (R33). -/
def setGrid (s : State) (g : Grid) : State := { s with grid := g }

/-- DT becomes `b` (R31). -/
def setDt (s : State) (b : Byte) : State := { s with dt := b }

/-- ST becomes `b` (R32). -/
def setSt (s : State) (b : Byte) : State := { s with st := b }

/-- The level of key `k` as sampled at the start of the tick (R11, R34). -/
def keyDown (s : State) (k : Nibble) : Bool := s.keys.getLsbD k.toNat

/-! ## The program counter -/

/-- PC becomes `a mod 4096` (R24). -/
def setPc (s : State) (a : Nat) : State := { s with pc := BitVec.ofNat 16 (a % 4096) }

/-- The sequential advance over one word (R95). -/
def advance (s : State) : State := setPc s (s.pc.toNat + 2)

/-- A skip: when the predicate holds, PC goes over one more word (R97). -/
def skipIf (c : Bool) (s : State) : State := if c then setPc s (s.pc.toNat + 2) else s

/-- PC becomes exactly `w`: the targets of JP and CALL, and the popped value of RET as it is (R112 to R114; DEDUCED,
safe, log entry 9: each is below 4096 in every reachable state, as R24 asks). -/
def jumpTo (s : State) (w : Word) : State := { s with pc := w }

/-! ## The stack -/

/-- `Push(w)` where there is room: S[SP] becomes `w` and SP goes up (R29). None where SP is 16 or more. -/
def push (s : State) (w : Word) : Option State :=
  if h : s.sp.toNat < 16 then some { s with stack := s.stack.set s.sp.toNat w h, sp := s.sp + 1 } else none

/-- `Pop()` where there is an entry: SP goes down and S[SP] is the value (R30); the entry keeps its value. None where
SP is 0 or above 16. -/
def pop (s : State) : Option (Word × State) :=
  if h : 1 ≤ s.sp.toNat ∧ s.sp.toNat ≤ 16 then some (s.stack[s.sp.toNat - 1]'(by omega), { s with sp := s.sp - 1 }) else none

/-! ## Faults (R99, R201) and the other statuses -/

/-- `raise Fault(kind)`: status becomes FAULT and the record is written; nothing else changes (R99, R201). This is the
CORE's whole exception entry, and there is no return from it (R200, R210). -/
def raiseFault (kind : FaultKind) (pc op : Word) (s : State) : State :=
  { s with status := .fault, faultKind := kind, faultPc := pc, faultOpcode := op }

/-- How CALL and RET end without a stack entry: the CORE's fault at the limit the rule names (R29, R30), with PC still
the instruction's own address; past it (SP above 16) there is no rule, and the model stops (log entry 8). -/
def stackStop (atLimit : Bool) (kind : FaultKind) (op : Word) (s : State) : Result :=
  if atLimit then .next (raiseFault kind s.pc op s) else .fault .stackDepthOutOfRange

/-- One draw is taken (R9). -/
def takeDraw (s : State) : State := { s with draws := s.draws + 1 }

/-- The optional `sys_event` pulse (R16, R110; log entry 10). -/
def pulseSysEvent (s : State) : State := if s.cfg.sysEvent then { s with sysPulses := s.sysPulses + 1 } else s

/-- The number of `status` on the output port (R36). -/
def statusCode : Status → BitVec 2
  | .run => 0
  | .waitKey => 1
  | .fault => 2
  | .stopped => 3

/-- The number of `fault_kind` on the output port (R37, R202). -/
def faultCode : FaultKind → BitVec 3
  | .none => 0
  | .stackOverflow => 1
  | .stackUnderflow => 2
  | .illegalInstruction => 3
  | .hostUnavailable => 4

end Sys2Proof.Machine
end

