-- ==== Sys2Proof/Machine/Flags.lean ====
section
/-! DEFINITION. The flag and result of each flag-writing ALU instruction (spec 43_alu.md R131, R138 to R142) and the two
writes of R130. Each sum or difference is exact on integers and then reduced modulo 256 (R131). -/

namespace Sys2Proof.Machine

/-- What a flag-writing instruction writes: VF's flag and Vx's result. -/
structure FlagResult where
  flag : Bool
  result : Byte
deriving DecidableEq, Repr

/-- The two writes V[F] <- flag and V[X] <- result, in the order `VF_DEST_ORDER` gives (R130). -/
def writeFlagResult (s : State) (x : RegIdx) (r : FlagResult) : State :=
  match s.cfg.vfDestOrder with
  | .flagThenResult => setV (setV s 0xF (boolByte r.flag)) x r.result
  | .resultThenFlag => setV (setV s x r.result) 0xF (boolByte r.flag)

/-- 8XY4: the carry is 1 when the sum passes 255 (R138). -/
def addFlag (x y : Byte) : FlagResult :=
  let sum := x.toNat + y.toNat
  { flag := decide (sum > 255), result := BitVec.ofNat 8 (sum % 256) }

/-- 8XY5 with (x, y), 8XY7 with (y, x): minuend - subtrahend, the flag strictly greater (R139, R141). -/
def subFlag (minuend subtrahend : Byte) : FlagResult :=
  { flag := decide (minuend.toNat > subtrahend.toNat),
    result := BitVec.ofInt 8 (((minuend.toNat : Int) - subtrahend.toNat) % 256) }

/-- 8XY6: the bit shifted out is bit 0 (R140). -/
def shrFlag (src : Byte) : FlagResult := { flag := src.getLsbD 0, result := src >>> 1 }

/-- 8XYE: the bit shifted out is bit 7 (R142). -/
def shlFlag (src : Byte) : FlagResult := { flag := src.getLsbD 7, result := src <<< 1 }

end Sys2Proof.Machine
end

