-- ==== Sys2Proof/Machine/Operands.lean ====
section
/-! DEFINITION. The operand forms of spec 30_encoding.md R72, R73 and the effective addresses of 44_index_memory.md. -/

namespace Sys2Proof.Machine

/-- `zext_16(NNN)`: an absolute address as a 16-bit value (R72). -/
def zext16 (nnn : Addr) : Word := nnn.setWidth 16

/-- `V[X] & 0xF`: the low nibble, which names a key (R124, R125) or a glyph (R152). -/
def lowNibble (b : Byte) : Nibble := b.setWidth 4

/-- The effective address I + 0, not yet reduced modulo 4096: the memory operations do that (R51). -/
def indexAddr (s : State) : Nat := s.index.toNat

/-- V[0], …, V[X]: the registers FX55 stores (R154). -/
def regsUpTo (s : State) (x : RegIdx) : List Byte := (List.range (x.toNat + 1)).map fun k => getV s (BitVec.ofNat 4 k)

/-- The byte a shift shifts: Vx, or Vy under `cosmac` (R140, R142). -/
def shiftSource (s : State) (x y : RegIdx) : Byte :=
  match s.cfg.quirkShift with
  | .modern => getV s x
  | .cosmac => getV s y

/-- The address of the glyph a byte's low nibble names: 5 · (b & 0xF) (R152). -/
def glyphAddr (b : Byte) : Word := BitVec.ofNat 16 (5 * (lowNibble b).toNat)

/-- The decimal digits of a byte, hundreds first (R153). -/
def decimalDigits (b : Byte) : List Byte :=
  [BitVec.ofNat 8 (b.toNat / 100), BitVec.ofNat 8 (b.toNat / 10 % 10), BitVec.ofNat 8 (b.toNat % 10)]

/-- I after FX55 or FX65: I + X + 1 modulo 65536 under `increment`, else I (R154, R155). -/
def indexAfterBlock (s : State) (x : RegIdx) : Word :=
  match s.cfg.quirkLoadStore with
  | .leave => s.index
  | .increment => BitVec.ofNat 16 (s.index.toNat + x.toNat + 1)

end Sys2Proof.Machine
end

