-- ==== Sys2Proof/Machine/Alu.lean ====
section
/-! DEFINITION. ALU and register instructions (spec 43_alu.md). Operands are read before any write (R130). -/

namespace Sys2Proof.Machine

/-- `LD Vx, byte`: V[X] <- NN (R132). -/
def execLdByte (x : RegIdx) (nn : Byte) (s : State) : Result := .next (setV (advance s) x nn)

/-- `ADD Vx, byte`: V[X] <- (x + NN) mod 256, no flag (R133). -/
def execAddByte (x : RegIdx) (nn : Byte) (s : State) : Result := .next (setV (advance s) x (addFlag (getV s x) nn).result)

/-- `LD Vx, Vy`: V[X] <- y (R134). -/
def execLdReg (x y : RegIdx) (s : State) : Result := .next (setV (advance s) x (getV s y))

/-- `OR Vx, Vy` (R135). -/
def execOrReg (x y : RegIdx) (s : State) : Result := .next (setV (advance s) x (getV s x ||| getV s y))

/-- `AND Vx, Vy` (R136). -/
def execAndReg (x y : RegIdx) (s : State) : Result := .next (setV (advance s) x (getV s x &&& getV s y))

/-- `XOR Vx, Vy` (R137). -/
def execXorReg (x y : RegIdx) (s : State) : Result := .next (setV (advance s) x (getV s x ^^^ getV s y))

/-- `ADD Vx, Vy` with the carry in VF (R138). -/
def execAddReg (x y : RegIdx) (s : State) : Result :=
  .next (writeFlagResult (advance s) x (addFlag (getV s x) (getV s y)))

/-- `SUB Vx, Vy`: x - y, VF = x > y (R139). -/
def execSubReg (x y : RegIdx) (s : State) : Result :=
  .next (writeFlagResult (advance s) x (subFlag (getV s x) (getV s y)))

/-- `SHR Vx` (R140). -/
def execShr (x y : RegIdx) (s : State) : Result := .next (writeFlagResult (advance s) x (shrFlag (shiftSource s x y)))

/-- `SUBN Vx, Vy`: y - x, VF = y > x (R141). -/
def execSubnReg (x y : RegIdx) (s : State) : Result :=
  .next (writeFlagResult (advance s) x (subFlag (getV s y) (getV s x)))

/-- `SHL Vx` (R142). -/
def execShl (x y : RegIdx) (s : State) : Result := .next (writeFlagResult (advance s) x (shlFlag (shiftSource s x y)))

/-- `RND Vx, byte`: V[X] <- rnd & NN, one fresh draw each time (R145). The draw is a free value (log entry 3). -/
def execRnd (x : RegIdx) (nn : Byte) (s : State) : Result :=
  .next (takeDraw (setV (advance s) x (Config.rndDraw s.draws &&& nn)))

end Sys2Proof.Machine
end

