-- ==== Sys2Proof/Machine/Display.lean ====
section
/-! DEFINITION. Frame buffer, XOR sprite blitter and collision detector (spec 46_display.md). -/

namespace Sys2Proof.Machine

/-- The cell G[y mod 32][x mod 64] (R33, R182). -/
def cell (g : Grid) (y x : Nat) : Bool :=
  (g[y % 32]'(Nat.mod_lt _ (by decide)))[x % 64]'(Nat.mod_lt _ (by decide))

/-- The grid with the cell G[y mod 32][x mod 64] set to `b`. -/
def setCell (g : Grid) (y x : Nat) (b : Bool) : Grid :=
  g.set (y % 32) ((g[y % 32]'(Nat.mod_lt _ (by decide))).set (x % 64) b (Nat.mod_lt _ (by decide)))
    (Nat.mod_lt _ (by decide))

/-- Pixel (i, j) of a sprite, value `p`, at the origin (ox, oy) (R182): XOR into its cell, and a collision where a lit
pixel meets a lit cell (R183). Under `clip` a pixel past the right or bottom edge is skipped (R184). -/
def blitPixel (q : ClipQuirk) (ox oy i j : Nat) (p : Bool) (gc : Grid × Bool) : Grid × Bool :=
  if q = .clip ∧ (64 ≤ ox + j ∨ 32 ≤ oy + i) then gc
  else (setCell gc.1 (oy + i) (ox + j) (cell gc.1 (oy + i) (ox + j) ^^ p), gc.2 || (p && cell gc.1 (oy + i) (ox + j)))

/-- Row i of a sprite, its columns left to right: bit 7 is the leftmost pixel (R182). -/
def blitRow (q : ClipQuirk) (ox oy i : Nat) (row : Byte) (gc : Grid × Bool) : Grid × Bool :=
  (List.range 8).foldl (fun gc j => blitPixel q ox oy i j (row.getLsbD (7 - j)) gc) gc

/-- The rows of a sprite from row i on, top to bottom (R182). -/
def blitRows (q : ClipQuirk) (ox oy : Nat) : Nat → List Byte → Grid × Bool → Grid × Bool
  | _, [], gc => gc
  | i, row :: rows, gc => blitRows q ox oy (i + 1) rows (blitRow q ox oy i row gc)

/-- `Blit(x, y, sprite)`: the new grid and the collision flag (R182 to R184). The origin is reduced mod 64 and mod 32. -/
def blit (q : ClipQuirk) (x y : Byte) (sprite : List Byte) (g : Grid) : Grid × Bool :=
  blitRows q (x.toNat % 64) (y.toNat % 32) 0 sprite (g, false)

/-- `CLS`: every cell 0 (R180). -/
def execCls (s : State) : Result := .next (setGrid (advance s) Grid.blank)

/-- `DRW Vx, Vy, nibble`: the sprite of N rows at I, blitted at (V[X], V[Y]); then VF <- collision (R181). N = 0 draws
nothing and clears VF. -/
def execDrw (x y : RegIdx) (n : Nibble) (s : State) : Result :=
  let gc := blit s.cfg.quirkClip (getV s x) (getV s y) (readBytes s (indexAddr s) n.toNat) s.grid
  .next (setV (setGrid (advance s) gc.1) 0xF (boolByte gc.2))

/-- Step 5 of a completed tick: `frame` is a copy of G (R90, R187). -/
def publishFrame (s : State) : State := { s with frame := s.grid }

end Sys2Proof.Machine
end

