-- ==== Sys2Proof/Decode.lean ====
section
/-! DEFINITION. The decoder and encoder of spec 30_encoding.md R70 to R78: one 16-bit word, most significant nibble first,
high byte at the lower address. Total; illegal words are rejected by name. -/

namespace Sys2Proof

/-! ## Fields (R10, R72) -/

/-- n1 = op[15:12], which selects the group (R74). -/
def fieldN1 (op : Word) : Nibble := op.extractLsb' 12 4

/-- X = op[11:8]. -/
def fieldX (op : Word) : RegIdx := op.extractLsb' 8 4

/-- Y = op[7:4]. -/
def fieldY (op : Word) : RegIdx := op.extractLsb' 4 4

/-- N = op[3:0], also the function code of the `XYF` format (R71). -/
def fieldN (op : Word) : Nibble := op.extractLsb' 0 4

/-- NN = op[7:0], also the function code of the `XF` format (R71). -/
def fieldNN (op : Word) : Byte := op.extractLsb' 0 8

/-- NNN = op[11:0]. -/
def fieldNNN (op : Word) : Addr := op.extractLsb' 0 12

/-! ## Decoding (R74 to R76) -/

/-- Why bytes are no instruction. The first five are the five illegal sets of R76, the last is a word cut short. -/
inductive DecodeReject where
  /-- 5XYn with n ≠ 0. -/
  | illegal5
  /-- 8XYn with n ∈ 8, 9, A, B, C, D, F. -/
  | illegal8
  /-- 9XYn with n ≠ 0. -/
  | illegal9
  /-- EXnn with nn ∉ 9E, A1. -/
  | illegalE
  /-- FXnn with nn ∉ 07, 0A, 15, 18, 1E, 29, 33, 55, 65. -/
  | illegalF
  /-- Fewer than two bytes: a decoder always consumes two (R70). -/
  | truncated
deriving DecidableEq, Repr

/-- Group 0: CLS and RET take priority over SYS (R75). -/
def decode0 (op : Word) : Instr :=
  if op = 0x00E0 then .cls else if op = 0x00EE then .ret else .sys (fieldNNN op)

/-- Group 8: the function code is op[3:0] (R74). -/
def decode8 (op : Word) : Except DecodeReject Instr :=
  let x := fieldX op
  let y := fieldY op
  match (fieldN op).toNat with
  | 0x0 => .ok (.ldReg x y)
  | 0x1 => .ok (.orReg x y)
  | 0x2 => .ok (.andReg x y)
  | 0x3 => .ok (.xorReg x y)
  | 0x4 => .ok (.addReg x y)
  | 0x5 => .ok (.subReg x y)
  | 0x6 => .ok (.shr x y)
  | 0x7 => .ok (.subnReg x y)
  | 0xE => .ok (.shl x y)
  | _ => .error .illegal8

/-- Group E: the function code is op[7:0] (R74). -/
def decodeE (op : Word) : Except DecodeReject Instr :=
  if fieldNN op = 0x9E then .ok (.skp (fieldX op))
  else if fieldNN op = 0xA1 then .ok (.sknp (fieldX op))
  else .error .illegalE

/-- Group F: the function code is op[7:0] (R74). -/
def decodeF (op : Word) : Except DecodeReject Instr :=
  let x := fieldX op
  if fieldNN op = 0x07 then .ok (.ldVxDt x)
  else if fieldNN op = 0x0A then .ok (.ldVxK x)
  else if fieldNN op = 0x15 then .ok (.ldDtVx x)
  else if fieldNN op = 0x18 then .ok (.ldStVx x)
  else if fieldNN op = 0x1E then .ok (.addI x)
  else if fieldNN op = 0x29 then .ok (.ldF x)
  else if fieldNN op = 0x33 then .ok (.ldB x)
  else if fieldNN op = 0x55 then .ok (.storeRegs x)
  else if fieldNN op = 0x65 then .ok (.loadRegs x)
  else .error .illegalF

/-- Decoding of one word (R74). It reads no state and no parameter (R78, R94). -/
def decodeWord (op : Word) : Except DecodeReject Instr :=
  match (fieldN1 op).toNat with
  | 0x0 => .ok (decode0 op)
  | 0x1 => .ok (.jp (fieldNNN op))
  | 0x2 => .ok (.call (fieldNNN op))
  | 0x3 => .ok (.seByte (fieldX op) (fieldNN op))
  | 0x4 => .ok (.sneByte (fieldX op) (fieldNN op))
  | 0x5 => if fieldN op = 0 then .ok (.seReg (fieldX op) (fieldY op)) else .error .illegal5
  | 0x6 => .ok (.ldByte (fieldX op) (fieldNN op))
  | 0x7 => .ok (.addByte (fieldX op) (fieldNN op))
  | 0x8 => decode8 op
  | 0x9 => if fieldN op = 0 then .ok (.sneReg (fieldX op) (fieldY op)) else .error .illegal9
  | 0xA => .ok (.ldI (fieldNNN op))
  | 0xB => .ok (.jpV0 (fieldNNN op))
  | 0xC => .ok (.rnd (fieldX op) (fieldNN op))
  | 0xD => .ok (.drw (fieldX op) (fieldY op) (fieldN op))
  | 0xE => decodeE op
  | _ => decodeF op

/-- The word two bytes make: the high byte stands first (R53, R93). -/
def wordOfBytes (hi lo : Byte) : Word := hi ++ lo

/-- The high byte of a word, which lies at the lower address (R53). -/
def highByte (op : Word) : Byte := op.extractLsb' 8 8

/-- The low byte of a word, which lies at the higher address (R53). -/
def lowByte (op : Word) : Byte := op.extractLsb' 0 8

/-- Decoding of a byte sequence: the instruction its first two bytes make, and the bytes after it (R70). -/
def decode : List Byte → Except DecodeReject (Instr × List Byte)
  | hi :: lo :: rest =>
    match decodeWord (wordOfBytes hi lo) with
    | .ok i => .ok (i, rest)
    | .error e => .error e
  | [_] | [] => .error .truncated

/-! ## Encoding (R71, R74) -/

/-- Format `NNN`. -/
def formNNN (n1 : Nibble) (nnn : Addr) : Word := n1 ++ nnn

/-- Formats `XNN` and `XF`: in `XF` the last byte is the function code. -/
def formXNN (n1 : Nibble) (x : RegIdx) (nn : Byte) : Word := n1 ++ x ++ nn

/-- Formats `XYN` and `XYF`: in `XYF` the last nibble is the function code. -/
def formXYN (n1 : Nibble) (x y : RegIdx) (n : Nibble) : Word := n1 ++ x ++ y ++ n

/-- The word of an instruction (R74). -/
def encode : Instr → Word
  | .cls => 0x00E0
  | .ret => 0x00EE
  | .sys nnn => formNNN 0x0 nnn
  | .jp nnn => formNNN 0x1 nnn
  | .call nnn => formNNN 0x2 nnn
  | .seByte x nn => formXNN 0x3 x nn
  | .sneByte x nn => formXNN 0x4 x nn
  | .seReg x y => formXYN 0x5 x y 0x0
  | .ldByte x nn => formXNN 0x6 x nn
  | .addByte x nn => formXNN 0x7 x nn
  | .ldReg x y => formXYN 0x8 x y 0x0
  | .orReg x y => formXYN 0x8 x y 0x1
  | .andReg x y => formXYN 0x8 x y 0x2
  | .xorReg x y => formXYN 0x8 x y 0x3
  | .addReg x y => formXYN 0x8 x y 0x4
  | .subReg x y => formXYN 0x8 x y 0x5
  | .shr x y => formXYN 0x8 x y 0x6
  | .subnReg x y => formXYN 0x8 x y 0x7
  | .shl x y => formXYN 0x8 x y 0xE
  | .sneReg x y => formXYN 0x9 x y 0x0
  | .ldI nnn => formNNN 0xA nnn
  | .jpV0 nnn => formNNN 0xB nnn
  | .rnd x nn => formXNN 0xC x nn
  | .drw x y n => formXYN 0xD x y n
  | .skp x => formXNN 0xE x 0x9E
  | .sknp x => formXNN 0xE x 0xA1
  | .ldVxDt x => formXNN 0xF x 0x07
  | .ldVxK x => formXNN 0xF x 0x0A
  | .ldDtVx x => formXNN 0xF x 0x15
  | .ldStVx x => formXNN 0xF x 0x18
  | .addI x => formXNN 0xF x 0x1E
  | .ldF x => formXNN 0xF x 0x29
  | .ldB x => formXNN 0xF x 0x33
  | .storeRegs x => formXNN 0xF x 0x55
  | .loadRegs x => formXNN 0xF x 0x65

/-- The two bytes of an instruction as memory holds them (R53, R70). -/
def encodeBytes (i : Instr) : List Byte := [highByte (encode i), lowByte (encode i)]

/-! ## The opcode table's words -/

/-- The word of a table row: bit 0 of `w` is the word's least significant bit, and bits from `nbits` up are 0. -/
def tableWord (nbits w : Nat) : Word := BitVec.ofNat 16 (w % 2 ^ nbits)

/-- The instruction the decoder reads from the bytes of a table row's word. -/
def decodeTableWord (nbits w : Nat) : Option Instr :=
  match decode [highByte (tableWord nbits w), lowByte (tableWord nbits w)] with
  | .ok (i, _) => some i
  | .error _ => none

end Sys2Proof
end

