-- ==== Sys2Proof/Machine/Flow.lean ====
section
/-! DEFINITION. Control transfer (spec 41_flow.md). Every meaning takes the state in which PC is the instruction's own
address a, and advances PC to (a + 2) mod 4096 first (R92, R95). -/

namespace Sys2Proof.Machine

/-- `SYS addr`: nothing but the sequential advance; the core may pulse `sys_event` (R110). NNN is ignored. -/
def execSys (_nnn : Addr) (s : State) : Result := .next (pulseSysEvent (advance s))

/-- `JP addr`: PC <- zext_16(NNN) (R112). -/
def execJp (nnn : Addr) (s : State) : Result := .next (jumpTo (advance s) (zext16 nnn))

/-- `CALL addr`: Push(a + 2), then PC <- zext_16(NNN); StackOverflow at SP = 16, with no other effect (R113, R29, R99). -/
def execCall (nnn : Addr) (s : State) : Result :=
  match push (advance s) (advance s).pc with
  | some t => .next (jumpTo t (zext16 nnn))
  | none => stackStop (s.sp == 16) .stackOverflow (encode (.call nnn)) s

/-- `RET`: PC <- Pop(); StackUnderflow at SP = 0, with no other effect (R114, R30, R99). -/
def execRet (s : State) : Result :=
  match pop (advance s) with
  | some (w, t) => .next (jumpTo t w)
  | none => stackStop (s.sp == 0) .stackUnderflow (encode .ret) s

/-- `JP V0, addr`: PC <- (V0 + NNN) mod 4096 (R115). -/
def execJpV0 (nnn : Addr) (s : State) : Result := .next (setPc (advance s) ((getV s 0).toNat + nnn.toNat))

end Sys2Proof.Machine
end

