-- ==== Sys2Proof/Machine/IndexMemory.lean ====
section
/-! DEFINITION. Index register and memory instructions (spec 44_index_memory.md). -/

namespace Sys2Proof.Machine

/-- `LD I, addr`: I <- zext_16(NNN) (R150). -/
def execLdI (nnn : Addr) (s : State) : Result := .next (setIndex (advance s) (zext16 nnn))

/-- `ADD I, Vx`: I <- (I + V[X]) mod 65536, no flag (R151). -/
def execAddI (x : RegIdx) (s : State) : Result :=
  .next (setIndex (advance s) (BitVec.ofNat 16 (s.index.toNat + (getV s x).toNat)))

/-- `LD F, Vx`: I <- 5 · (V[X] & 0xF) (R152). -/
def execLdF (x : RegIdx) (s : State) : Result := .next (setIndex (advance s) (glyphAddr (getV s x)))

/-- `LD B, Vx`: the three decimal digits of V[X] at I, I + 1, I + 2 (R153). -/
def execLdB (x : RegIdx) (s : State) : Result :=
  .next (writeBytes (advance s) (indexAddr s) (decimalDigits (getV s x)))

/-- `LD [I], Vx`: M[I + i] <- V[i] for i in 0..X, then I as `QUIRK_LOAD_STORE` says (R154). -/
def execStoreRegs (x : RegIdx) (s : State) : Result :=
  .next (setIndex (writeBytes (advance s) (indexAddr s) (regsUpTo s x)) (indexAfterBlock s x))

/-- `LD Vx, [I]`: V[i] <- M[I + i] for i in 0..X, then I as `QUIRK_LOAD_STORE` says (R155). -/
def execLoadRegs (x : RegIdx) (s : State) : Result :=
  .next (setIndex (setRegsFrom (advance s) 0 (readBytes s (indexAddr s) (x.toNat + 1))) (indexAfterBlock s x))

end Sys2Proof.Machine
end

