-- ==== Sys2Proof/Machine/Skip.lean ====
section
/-! DEFINITION. Conditional skips (spec 42_skip.md, 40_execution_cycle.md R97). -/

namespace Sys2Proof.Machine

/-- `SE Vx, byte`: skip when V[X] = NN (R120). -/
def execSeByte (x : RegIdx) (nn : Byte) (s : State) : Result := .next (skipIf (getV s x == nn) (advance s))

/-- `SNE Vx, byte`: skip when V[X] ≠ NN (R121). -/
def execSneByte (x : RegIdx) (nn : Byte) (s : State) : Result := .next (skipIf (getV s x != nn) (advance s))

/-- `SE Vx, Vy`: skip when V[X] = V[Y] (R122). -/
def execSeReg (x y : RegIdx) (s : State) : Result := .next (skipIf (getV s x == getV s y) (advance s))

/-- `SNE Vx, Vy`: skip when V[X] ≠ V[Y] (R123). -/
def execSneReg (x y : RegIdx) (s : State) : Result := .next (skipIf (getV s x != getV s y) (advance s))

/-- `SKP Vx`: skip when key V[X] & 0xF is down (R124). -/
def execSkp (x : RegIdx) (s : State) : Result := .next (skipIf (keyDown s (lowNibble (getV s x))) (advance s))

/-- `SKNP Vx`: skip when key V[X] & 0xF is up (R125). -/
def execSknp (x : RegIdx) (s : State) : Result := .next (skipIf (!keyDown s (lowNibble (getV s x))) (advance s))

end Sys2Proof.Machine
end

