-- ==== Sys2Proof/Machine/TimersKeys.lean ====
section
/-! DEFINITION. Timers and key wait (spec 45_timers_keys.md): FX07, FX0A, FX15, FX18, the poll of a waiting FX0A, and
the countdown. -/

namespace Sys2Proof.Machine

/-- `LD Vx, DT` (R160). -/
def execLdVxDt (x : RegIdx) (s : State) : Result := .next (setV (advance s) x s.dt)

/-- `LD Vx, K`, its start: wait_x <- X, Kbase <- K, PC stays the instruction's own address, status <- WAIT_KEY (R161).
The instruction completes in a later poll, `waitPoll` (R162). -/
def execLdVxK (x : RegIdx) (s : State) : Result :=
  .next { s with waitX := x, kbase := s.keys, status := .waitKey }

/-- `LD DT, Vx` (R164). -/
def execLdDtVx (x : RegIdx) (s : State) : Result := .next (setDt (advance s) (getV s x))

/-- `LD ST, Vx` (R165). -/
def execLdStVx (x : RegIdx) (s : State) : Result := .next (setSt (advance s) (getV s x))

/-- The keys that went from 0 to 1 since `Kbase`, in rising order: the set E of R162. -/
def newKeys (s : State) : List Nibble :=
  ((List.range 16).map (BitVec.ofNat 4)).filter fun k => s.keys.getLsbD k.toNat && !s.kbase.getLsbD k.toNat

/-- One of the keys, which one is up to the draw `d`; a single key needs no draw (R163; free value, log entry 4). -/
def chooseKey (d : Nat) : List Nibble → Option Nibble
  | [] => none
  | [k] => some k
  | ks => ks[d % ks.length]?

/-- `WaitPoll()` (R162): with a newly pressed key, V[wait_x] <- k, PC goes past the FX0A and status becomes RUN, and the
answer is true; with none, Kbase <- K and the answer is false. -/
def waitPoll (s : State) : Bool × State :=
  match chooseKey (Config.keyDraw s.draws) (newKeys s) with
  | some k => (true, takeDraw { advance (setV s s.waitX (k.setWidth 8)) with status := .run })
  | none => (false, { s with kbase := s.keys })

/-- One timer's countdown, never below 0 (R170, R171). -/
def countDown (b : Byte) : Byte := if b = 0 then 0 else b - 1

/-- `TimerTick()`, step 3 of a completed tick (R170). -/
def timerTick (s : State) : State := { s with dt := countDown s.dt, st := countDown s.st }

/-- Step 4: `sound_on` is the level ST ≠ 0 (R172). -/
def publishSound (s : State) : State := { s with soundOn := s.st != 0 }

end Sys2Proof.Machine
end

