-- ==== Sys2Proof/Machine/Tick.lean ====
section
/-! DEFINITION. The instruction cycle and the tick (spec 40_execution_cycle.md R90 to R103, 60_exceptions.md R206 to
R209). One step of the model is one attempt of a tick's step 2 (DESIGN CHOICE, safe, log entry 2): the first attempt of a
tick also runs the tick's beginning, the last one its steps 3 to 5. With CYCLES_PER_TICK = 1 a step is a whole tick. -/

namespace Sys2Proof.Machine

/-! ## The cycle -/

/-- The word fetched at PC: high byte at PC, low byte at PC + 1, both modulo 4096 (R93). -/
def fetchWord (s : State) : Word := wordOfBytes (readByte s s.pc.toNat) (readByte s (s.pc.toNat + 1))

/-- `Cycle()`: fetch, decode, execute; an illegal word raises IllegalInstruction before PC advances (R92, R99, R203). -/
def cycle (s : State) : Result :=
  match decode [readByte s s.pc.toNat, readByte s (s.pc.toNat + 1)] with
  | .ok (i, _) => exec i s
  | .error _ => .next (raiseFault .illegalInstruction s.pc (fetchWord s) s)

/-! ## The tick's end -/

/-- Steps 3 to 5, which end a completed tick: countdown, sound, frame (R90). -/
def endTick (s : State) : State := { publishFrame (publishSound (timerTick s)) with slotsLeft := 0 }

/-- After an attempt: a fault ends the tick at once, without steps 3 to 5 (R99); an unsuccessful poll (`goOn = false`) or
the budget's last slot ends step 2 (R101); else one slot is used. -/
def afterAttempt (goOn : Bool) (s : State) : State :=
  if s.status = .fault then { s with slotsLeft := 0 }
  else if goOn && decide (1 < s.slotsLeft) then { s with slotsLeft := s.slotsLeft - 1 }
  else endTick s

/-- One attempt of step 2: a cycle in RUN, a poll in WAIT_KEY, nothing in FAULT or STOPPED (R90, R100, R101). -/
def attempt (s : State) : Result :=
  match s.status with
  | .run => Result.andThen (cycle s) fun t => .next (afterAttempt true t)
  | .waitKey => .next (afterAttempt (waitPoll s).1 (waitPoll s).2)
  | .fault | .stopped => .next s

/-! ## The tick's beginning -/

/-- The host's lines take the levels of the tick that begins (R14, R15; log entry 5). -/
def nextPorts (s : State) : State :=
  match s.portQueue with
  | [] => s
  | p :: ps => { s with ports := p, portQueue := ps }

/-- `HostFault()`: HostUnavailable, with PC as it stands and opcode 0 (R206). -/
def hostFault (s : State) : State := raiseFault .hostUnavailable s.pc 0 s

/-- Step 1: K <- keys (R91), and the whole budget lies ahead (R101). -/
def openTick (s : State) : State := { s with keys := s.ports.keys, slotsLeft := s.cfg.cyclesPerTick.val }

/-- The beginning of a tick, shutdown before host_fault and both before step 1 (R90, R208, R209), and its first attempt. -/
def startTick (s : State) : Result :=
  let t := nextPorts s
  if t.ports.shutdown then .next { t with status := .stopped }
  else if t.ports.hostFault then .next (hostFault t)
  else attempt (openTick t)

/-- One step: nothing in FAULT or STOPPED (R103); else the next attempt of the tick under way, or the first of a new tick. -/
def stepTick (s : State) : Result :=
  match s.status with
  | .fault | .stopped => .next s
  | .run | .waitKey => if s.slotsLeft = 0 then startTick s else attempt s

/-! ## The tick as the spec writes it -/

/-- Step 2 with `n` attempts left, and then steps 3 to 5: the loop of R90. -/
def tickSlots : Nat → State → Result
  | 0, s => .next (endTick s)
  | n + 1, s =>
    match s.status with
    | .run => Result.andThen (cycle s) fun t => if t.status = .fault then .next t else tickSlots n t
    | .waitKey => if (waitPoll s).1 then tickSlots n (waitPoll s).2 else .next (endTick (waitPoll s).2)
    | .fault | .stopped => .next s

/-- `Tick()`, the procedure of R90 from a tick boundary: the reference the step is compared with. -/
def tick (s : State) : Result :=
  match s.status with
  | .fault | .stopped => .next s
  | .run | .waitKey =>
    let t := nextPorts s
    if t.ports.shutdown then .next { t with status := .stopped }
    else if t.ports.hostFault then .next (hostFault t)
    else tickSlots t.cfg.cyclesPerTick.val { t with keys := t.ports.keys }

/-- The state with a word's bytes placed at PC, where the next cycle fetches: the two bytes the loader would put there
(R93, R222; log entry 13). -/
def placeAtPc (s : State) (op : Word) : State := writeBytes s s.pc.toNat [highByte op, lowByte op]

end Sys2Proof.Machine
end

