-- ==== Sys2Proof/Machine/Step.lean ====
section
/-! DEFINITION. The step, and the state with a given instruction next. Log entries 2 and 13. -/

namespace Sys2Proof.Machine

/-- One step of the machine: one attempt of a tick (`Sys2Proof.Machine.stepTick`). -/
def step (s : State) : Host.Outcome State Fault Refusal := stepTick s

/-- `s` with the instruction of bits `w` where the next cycle fetches, at PC (log entry 13). In a state with status RUN
and no shutdown or host_fault waiting, as reset is, the next step runs it. -/
def State.withFetchWord (s : State) (nbits w : Nat) : State := placeAtPc s (tableWord nbits w)

end Sys2Proof.Machine
end

