-- ==== Sys2Proof/Safety.lean ====
section
/-! DEFINITION. The terms claims are stated in: frames, the invariants of spec 10_state.md R42 and their kin, and what
the whole-machine rules list (R21, R22, R98, R185). -/

namespace Sys2Proof.Safety

open Sys2Proof.Machine

/-! ## Frames -/

/-- Every address of M reads as before. -/
def MemSame (s t : State) : Prop := ∀ a, readByte t a = readByte s a

/-- PC went over one word: (a + 2) mod 4096 (R95). -/
def PcAdvanced (s t : State) : Prop := t.pc.toNat = (s.pc.toNat + 2) % 4096

/-- Nothing but PC changed. -/
def OnlyPc (s t : State) : Prop := { t with pc := s.pc } = s ∧ MemSame s t

/-- PC went over one word, only the general registers `xs` may hold a new value, and nothing else changed. -/
def OnlyRegs (s t : State) (xs : List RegIdx) : Prop :=
  PcAdvanced s t ∧ { t with pc := s.pc, v := s.v } = s ∧ (∀ r, r ∉ xs → getV t r = getV s r) ∧ MemSame s t

/-- PC went over one word, I may hold a new value, and nothing else changed. -/
def OnlyIndex (s t : State) : Prop := PcAdvanced s t ∧ { t with pc := s.pc, index := s.index } = s ∧ MemSame s t

/-- A flag-writing instruction: the flag in VF and the result in Vx; where Vx is VF, the write that comes last stays
(R130). Only those two registers and PC change. -/
def FlagAndResult (s t : State) (x : RegIdx) (flag result : Nat) : Prop :=
  (x ≠ 0xF → (getV t 0xF).toNat = flag ∧ (getV t x).toNat = result) ∧
  (x = 0xF → (getV t 0xF).toNat = match s.cfg.vfDestOrder with | .flagThenResult => result | .resultThenFlag => flag) ∧
  OnlyRegs s t [x, 0xF]

/-- The state FAULT entered from `s` by the instruction at PC with word `op`: the record and the status, and nothing else
(R99, R201). -/
def Faulted (s : State) (kind : FaultKind) (op : Word) : State :=
  { s with status := .fault, faultKind := kind, faultPc := s.pc, faultOpcode := op }

/-! ## Invariants -/

/-- The ranges of R42 and R27, stack entries that are PC values (R26), canonical memory, and a budget not overdrawn. -/
def Ranges (s : State) : Prop :=
  s.pc.toNat < 4096 ∧ s.sp.toNat ≤ 16 ∧ (∀ k (h : k < 16), (s.stack[k]).toNat < 4096) ∧
  Memory.wf s.cfg.font s.mem = true ∧ s.slotsLeft < s.cfg.cyclesPerTick.val

/-- The fault record is empty unless status is FAULT; then it names a kind, fault_pc is the held PC, and fault_opcode is
the word at it, 0 for HostUnavailable (R37, R99, R202). -/
def RecordOk (s : State) : Prop :=
  (s.status = .fault ↔ s.faultKind ≠ .none) ∧
  (s.faultKind = .none → s.faultPc = 0 ∧ s.faultOpcode = 0) ∧
  (s.status = .fault → s.faultPc = s.pc ∧
    s.faultOpcode = if s.faultKind = .hostUnavailable then 0 else fetchWord s)

/-- While an FX0A waits, PC is at that FX0A's own word and Kbase is the last sampled K (R38, R161, R162). -/
def WaitOk (s : State) : Prop :=
  s.status = .waitKey → fetchWord s = 0xF#4 ++ s.waitX ++ 0x0A#8 ∧ s.kbase = s.keys

/-- At a tick boundary, unless a fault cut a tick short, the outputs show the state: `sound_on` is ST ≠ 0 and `frame` is
G; within a tick the core is in RUN or WAIT_KEY (R39, R99, R172, R187). -/
def OutputsOk (s : State) : Prop :=
  (s.slotsLeft = 0 → s.status ≠ .fault → (s.soundOn = true ↔ s.st ≠ 0) ∧ s.frame = s.grid) ∧
  (s.slotsLeft ≠ 0 → s.status = .run ∨ s.status = .waitKey)

/-! ## What the whole-machine rules list -/

/-- The six instructions that write VF as a side effect (R21). -/
def writesFlag : Instr → Bool
  | .addReg _ _ | .subReg _ _ | .shr _ _ | .subnReg _ _ | .shl _ _ | .drw _ _ _ => true
  | .cls | .ret | .sys _ | .jp _ | .call _ | .seByte _ _ | .sneByte _ _ | .seReg _ _ | .ldByte _ _ | .addByte _ _
  | .ldReg _ _ | .orReg _ _ | .andReg _ _ | .xorReg _ _ | .sneReg _ _ | .ldI _ | .jpV0 _ | .rnd _ _ | .skp _ | .sknp _
  | .ldVxDt _ | .ldVxK _ | .ldDtVx _ | .ldStVx _ | .addI _ | .ldF _ | .ldB _ | .storeRegs _ | .loadRegs _ => false

/-- The general registers an instruction names as its destination (R22); FX0A writes Vx only on completion. -/
def namesDest (i : Instr) (r : RegIdx) : Bool :=
  match i with
  | .ldByte x _ | .addByte x _ | .ldReg x _ | .orReg x _ | .andReg x _ | .xorReg x _ | .addReg x _ | .subReg x _
  | .shr x _ | .subnReg x _ | .shl x _ | .rnd x _ | .ldVxDt x => r == x
  | .loadRegs x => decide (r.toNat ≤ x.toNat)
  | .cls | .ret | .sys _ | .jp _ | .call _ | .seByte _ _ | .sneByte _ _ | .seReg _ _ | .sneReg _ _ | .ldI _ | .jpV0 _
  | .drw _ _ _ | .skp _ | .sknp _ | .ldVxK _ | .ldDtVx _ | .ldStVx _ | .addI _ | .ldF _ | .ldB _ | .storeRegs _ => false

/-- The PC each instruction leaves (R98). -/
def nextPc (i : Instr) (s : State) : Nat :=
  let a := s.pc.toNat
  match i with
  | .sys _ | .ldByte _ _ | .addByte _ _ | .ldReg _ _ | .orReg _ _ | .andReg _ _ | .xorReg _ _ | .addReg _ _ | .subReg _ _
  | .shr _ _ | .subnReg _ _ | .shl _ _ | .ldI _ | .rnd _ _ | .drw _ _ _ | .ldVxDt _ | .ldDtVx _ | .ldStVx _ | .addI _
  | .ldF _ | .ldB _ | .storeRegs _ | .loadRegs _ | .cls => (a + 2) % 4096
  | .seByte x nn => if getV s x = nn then (a + 4) % 4096 else (a + 2) % 4096
  | .sneByte x nn => if getV s x = nn then (a + 2) % 4096 else (a + 4) % 4096
  | .seReg x y => if getV s x = getV s y then (a + 4) % 4096 else (a + 2) % 4096
  | .sneReg x y => if getV s x = getV s y then (a + 2) % 4096 else (a + 4) % 4096
  | .skp x => if s.keys.getLsbD ((getV s x).toNat % 16) then (a + 4) % 4096 else (a + 2) % 4096
  | .sknp x => if s.keys.getLsbD ((getV s x).toNat % 16) then (a + 2) % 4096 else (a + 4) % 4096
  | .jp nnn => nnn.toNat
  | .call nnn => if s.sp.toNat = 16 then a else nnn.toNat
  | .jpV0 nnn => ((getV s 0).toNat + nnn.toNat) % 4096
  | .ret => if s.sp.toNat = 0 then a else (s.stack[s.sp.toNat - 1]?.getD 0).toNat
  | .ldVxK _ => a

/-- Does a sprite pixel of value 1 land on cell (gy, gx)? The sprite drawn in one parallel write: the cell's offset from
the origin (x mod 64, y mod 32) names its row and column, and under `clip` a cell left of or above the origin has been
reached only by wrapping and gets none (R182, R184, R185). -/
def spritePixel (q : ClipQuirk) (x y : Byte) (sprite : List Byte) (gy gx : Nat) : Bool :=
  let ox := x.toNat % 64
  let oy := y.toNat % 32
  let i := (gy + 32 - oy) % 32
  let j := (gx + 64 - ox) % 64
  decide (i < sprite.length) && decide (j < 8) && (sprite.getD i 0).getLsbD (7 - j) &&
    (q == .wrap || (decide (ox ≤ gx) && decide (oy ≤ gy)))

/-- Key `k` went from 0 to 1 since Kbase: the set E of R162. -/
def newlyPressed (s : State) (k : Nibble) : Prop := s.keys.getLsbD k.toNat = true ∧ s.kbase.getLsbD k.toNat = false

/-- `n` tick ends in a row, with no instruction between them. -/
def endTicks : Nat → State → State
  | 0, s => s
  | n + 1, s => endTicks n (endTick s)

end Sys2Proof.Safety
end

