-- ==== Sys2Proof/Certificates/Slice0/Obligations.lean ====
section
/-! DEFINITION. The statements for the provers, from the numbered rules of spec/. -/

open Sys2Proof Sys2Proof.Machine Sys2Proof.Safety

/-! ## Encoding (30_encoding.md) -/

/-- A few words written out from R71 and R74, one of each format and one of each illegal set. -/
def Obligations.TableWordsDecode : Prop :=
  decodeWord 0b0000_0000_1110_0000 = .ok .cls ∧
  decodeWord 0b0000_0000_1110_1110 = .ok .ret ∧
  decodeWord 0b0000_0000_1110_0001 = .ok (.sys 0x0E1) ∧
  decodeWord 0b0001_1010_1011_1100 = .ok (.jp 0xABC) ∧
  decodeWord 0b0110_1010_0001_0010 = .ok (.ldByte 0xA 0x12) ∧
  decodeWord 0b1000_0010_0011_0100 = .ok (.addReg 0x2 0x3) ∧
  decodeWord 0b1101_0001_0010_0101 = .ok (.drw 0x1 0x2 0x5) ∧
  decodeWord 0b1110_0100_1001_1110 = .ok (.skp 0x4) ∧
  decodeWord 0b1111_0010_0110_0101 = .ok (.loadRegs 0x2) ∧
  decodeWord 0x5121 = .error .illegal5 ∧
  decodeWord 0x8128 = .error .illegal8 ∧
  decodeWord 0x9AB1 = .error .illegal9 ∧
  decodeWord 0xE19F = .error .illegalE ∧
  decodeWord 0xF000 = .error .illegalF

/-- Decoding the bytes of any well-formed instruction gives it back, with the rest of the bytes (R70, R74, R78). -/
def Obligations.DecodeInvertsEncode : Prop :=
  ∀ (i : Instr) (rest : List Byte), i.wf = true → decode (encodeBytes i ++ rest) = .ok (i, rest)

/-- A word that decodes is the word of the instruction it decodes to, and that instruction is well formed: each word has
one meaning, and SYS never takes 00E0 or 00EE (R75, R78). -/
def Obligations.EncodeInvertsDecode : Prop :=
  ∀ (op : Word) (i : Instr), decodeWord op = .ok i → i.wf = true ∧ encode i = op

/-- The illegal words are exactly the five sets of R76. -/
def Obligations.IllegalWordsAreExactlyTheListedOnes : Prop :=
  ∀ op : Word, (∃ e, decodeWord op = .error e) ↔
    (op.toNat / 4096 = 0x5 ∧ op.toNat % 16 ≠ 0) ∨
    (op.toNat / 4096 = 0x8 ∧ op.toNat % 16 ∈ [0x8, 0x9, 0xA, 0xB, 0xC, 0xD, 0xF]) ∨
    (op.toNat / 4096 = 0x9 ∧ op.toNat % 16 ≠ 0) ∨
    (op.toNat / 4096 = 0xE ∧ op.toNat % 256 ∉ [0x9E, 0xA1]) ∨
    (op.toNat / 4096 = 0xF ∧ op.toNat % 256 ∉ [0x07, 0x0A, 0x15, 0x18, 0x1E, 0x29, 0x33, 0x55, 0x65])

/-! ## Control transfer (41_flow.md) -/

/-- SYS advances PC and changes nothing else but the count of `sys_event` pulses (R110). That count, and that a core whose
option is on pulses each time, is the model's choice (log entry 10). -/
def Obligations.SysOnlyAdvances : Prop :=
  ∀ (nnn : Addr) (s : State),
    (nnn ≠ 0x0E0 → nnn ≠ 0x0EE → decodeWord (0x0#4 ++ nnn) = .ok (.sys nnn)) ∧
    ∃ t, exec (.sys nnn) s = .next t ∧ PcAdvanced s t ∧ { t with pc := s.pc, sysPulses := s.sysPulses } = s ∧
      t.sysPulses = s.sysPulses + (if s.cfg.sysEvent then 1 else 0) ∧ MemSame s t

/-- JP sets PC to NNN and changes nothing else (R112). -/
def Obligations.JumpSetsPc : Prop :=
  ∀ (nnn : Addr) (s : State),
    decodeWord (0x1#4 ++ nnn) = .ok (.jp nnn) ∧
    ∃ t, exec (.jp nnn) s = .next t ∧ t.pc.toNat = nnn.toNat ∧ OnlyPc s t

/-- JP V0 sets PC to (V0 + NNN) mod 4096 and changes nothing else (R115). -/
def Obligations.JumpV0AddsV0 : Prop :=
  ∀ (nnn : Addr) (s : State),
    decodeWord (0xB#4 ++ nnn) = .ok (.jpV0 nnn) ∧
    ∃ t, exec (.jpV0 nnn) s = .next t ∧ t.pc.toNat = ((getV s 0x0).toNat + nnn.toNat) % 4096 ∧ OnlyPc s t

/-- A cycle that runs a JP to its own address changes no state at all (R105). -/
def Obligations.JumpToItselfChangesNothing : Prop :=
  ∀ (nnn : Addr) (s : State), s.pc.toNat = nnn.toNat → fetchWord s = 0x1#4 ++ nnn → cycle s = .next s

/-- CALL with room on the stack pushes (a + 2) mod 4096 at S[SP] and sets PC to NNN; on a full stack it faults with no
other effect (R113, R29, R99). -/
def Obligations.CallPushesReturnAddress : Prop :=
  ∀ (nnn : Addr) (s : State), decodeWord (0x2#4 ++ nnn) = .ok (.call nnn) ∧
    (s.sp.toNat < 16 → ∃ t, exec (.call nnn) s = .next t ∧ t.pc.toNat = nnn.toNat ∧ t.sp.toNat = s.sp.toNat + 1 ∧
      (∀ k (h : k < 16), (t.stack[k]).toNat = if k = s.sp.toNat then (s.pc.toNat + 2) % 4096 else (s.stack[k]).toNat) ∧
      { t with pc := s.pc, sp := s.sp, stack := s.stack } = s ∧ MemSame s t) ∧
    (s.sp.toNat = 16 → exec (.call nnn) s = .next (Faulted s .stackOverflow (0x2#4 ++ nnn)))

/-- RET with an entry on the stack sets PC to the top entry and takes it off, and the entry itself stays; on an empty stack
it faults with no other effect (R114, R30, R99). -/
def Obligations.ReturnPopsAddress : Prop :=
  decodeWord 0x00EE = .ok .ret ∧
  (∀ s : State, ∀ h : 1 ≤ s.sp.toNat ∧ s.sp.toNat ≤ 16,
    ∃ t, exec .ret s = .next t ∧ t.pc = s.stack[s.sp.toNat - 1]'(by omega) ∧ t.sp.toNat + 1 = s.sp.toNat ∧
      { t with pc := s.pc, sp := s.sp } = s ∧ MemSame s t) ∧
  (∀ s : State, s.sp.toNat = 0 → exec .ret s = .next (Faulted s .stackUnderflow 0x00EE))

/-- Past the 16 entries, where the spec says SP never is, the model stops: the model's choice (log entry 8). -/
def Obligations.StackDepthOutOfRangeStops : Prop :=
  ∀ (nnn : Addr) (s : State), 16 < s.sp.toNat →
    exec (.call nnn) s = .fault .stackDepthOutOfRange ∧ exec .ret s = .fault .stackDepthOutOfRange

/-- CALL, then RET with the stack as CALL left it, returns to the instruction after the CALL (R104). -/
def Obligations.CallThenReturnComesBack : Prop :=
  ∀ (nnn : Addr) (s t u : State), s.sp.toNat < 16 → exec (.call nnn) s = .next t → u.stack = t.stack → u.sp = t.sp →
    ∃ w, exec .ret u = .next w ∧ w.pc.toNat = (s.pc.toNat + 2) % 4096 ∧ w.sp = s.sp

/-! ## Skips (42_skip.md) -/

/-- SE and SNE with a byte: over two words when the predicate holds, over one when not; nothing else (R120, R121). -/
def Obligations.SkipComparesByte : Prop :=
  ∀ (x : RegIdx) (nn : Byte) (s : State),
    decodeWord (0x3#4 ++ x ++ nn) = .ok (.seByte x nn) ∧ decodeWord (0x4#4 ++ x ++ nn) = .ok (.sneByte x nn) ∧
    (∃ t, exec (.seByte x nn) s = .next t ∧ OnlyPc s t ∧
      t.pc.toNat = (s.pc.toNat + if (getV s x).toNat = nn.toNat then 4 else 2) % 4096) ∧
    (∃ t, exec (.sneByte x nn) s = .next t ∧ OnlyPc s t ∧
      t.pc.toNat = (s.pc.toNat + if (getV s x).toNat = nn.toNat then 2 else 4) % 4096)

/-- SE and SNE with a register; the words with another last nibble are illegal (R122, R123). -/
def Obligations.SkipComparesRegister : Prop :=
  ∀ (x y : RegIdx) (s : State),
    decodeWord (0x5#4 ++ x ++ y ++ 0x0#4) = .ok (.seReg x y) ∧ decodeWord (0x9#4 ++ x ++ y ++ 0x0#4) = .ok (.sneReg x y) ∧
    (∀ n : Nibble, n ≠ 0 → decodeWord (0x5#4 ++ x ++ y ++ n) = .error .illegal5 ∧
      decodeWord (0x9#4 ++ x ++ y ++ n) = .error .illegal9) ∧
    (∃ t, exec (.seReg x y) s = .next t ∧ OnlyPc s t ∧
      t.pc.toNat = (s.pc.toNat + if (getV s x).toNat = (getV s y).toNat then 4 else 2) % 4096) ∧
    (∃ t, exec (.sneReg x y) s = .next t ∧ OnlyPc s t ∧
      t.pc.toNat = (s.pc.toNat + if (getV s x).toNat = (getV s y).toNat then 2 else 4) % 4096)

/-- SKP and SKNP: the key is Vx's low nibble, its level the one sampled for this tick (R124, R125). -/
def Obligations.SkipTestsKey : Prop :=
  ∀ (x : RegIdx) (s : State),
    decodeWord (0xE#4 ++ x ++ 0x9E#8) = .ok (.skp x) ∧ decodeWord (0xE#4 ++ x ++ 0xA1#8) = .ok (.sknp x) ∧
    (∃ t, exec (.skp x) s = .next t ∧ OnlyPc s t ∧
      t.pc.toNat = (s.pc.toNat + if s.keys.getLsbD ((getV s x).toNat % 16) then 4 else 2) % 4096) ∧
    (∃ t, exec (.sknp x) s = .next t ∧ OnlyPc s t ∧
      t.pc.toNat = (s.pc.toNat + if s.keys.getLsbD ((getV s x).toNat % 16) then 2 else 4) % 4096)

/-! ## ALU (43_alu.md) -/

/-- LD Vx,byte and ADD Vx,byte; no flag (R132, R133). -/
def Obligations.ImmediateLoadAndAdd : Prop :=
  ∀ (x : RegIdx) (nn : Byte) (s : State),
    decodeWord (0x6#4 ++ x ++ nn) = .ok (.ldByte x nn) ∧ decodeWord (0x7#4 ++ x ++ nn) = .ok (.addByte x nn) ∧
    (∃ t, exec (.ldByte x nn) s = .next t ∧ getV t x = nn ∧ OnlyRegs s t [x]) ∧
    (∃ t, exec (.addByte x nn) s = .next t ∧ (getV t x).toNat = ((getV s x).toNat + nn.toNat) % 256 ∧ OnlyRegs s t [x])

/-- LD, OR, AND, XOR of registers, bit by bit; no flag (R134 to R137). -/
def Obligations.CopyAndLogicWriteVx : Prop :=
  ∀ (x y : RegIdx) (s : State),
    decodeWord (0x8#4 ++ x ++ y ++ 0x0#4) = .ok (.ldReg x y) ∧ decodeWord (0x8#4 ++ x ++ y ++ 0x1#4) = .ok (.orReg x y) ∧
    decodeWord (0x8#4 ++ x ++ y ++ 0x2#4) = .ok (.andReg x y) ∧ decodeWord (0x8#4 ++ x ++ y ++ 0x3#4) = .ok (.xorReg x y) ∧
    (∃ t, exec (.ldReg x y) s = .next t ∧ getV t x = getV s y ∧ OnlyRegs s t [x]) ∧
    (∃ t, exec (.orReg x y) s = .next t ∧ OnlyRegs s t [x] ∧
      ∀ k < 8, (getV t x).getLsbD k = ((getV s x).getLsbD k || (getV s y).getLsbD k)) ∧
    (∃ t, exec (.andReg x y) s = .next t ∧ OnlyRegs s t [x] ∧
      ∀ k < 8, (getV t x).getLsbD k = ((getV s x).getLsbD k && (getV s y).getLsbD k)) ∧
    (∃ t, exec (.xorReg x y) s = .next t ∧ OnlyRegs s t [x] ∧
      ∀ k < 8, (getV t x).getLsbD k = ((getV s x).getLsbD k ^^ (getV s y).getLsbD k))

/-- ADD Vx,Vy: the sum modulo 256, the carry in VF when the sum passes 255, X = F by the write order (R130, R138). -/
def Obligations.AddSetsCarry : Prop :=
  ∀ (x y : RegIdx) (s : State), decodeWord (0x8#4 ++ x ++ y ++ 0x4#4) = .ok (.addReg x y) ∧
    ∃ t, exec (.addReg x y) s = .next t ∧
      FlagAndResult s t x (if (getV s x).toNat + (getV s y).toNat > 255 then 1 else 0)
        (((getV s x).toNat + (getV s y).toNat) % 256)

/-- SUB and SUBN: the difference modulo 256, VF = 1 exactly when the minuend is strictly greater (R130, R139, R141). -/
def Obligations.SubtractSetsStrictlyGreater : Prop :=
  ∀ (x y : RegIdx) (s : State),
    decodeWord (0x8#4 ++ x ++ y ++ 0x5#4) = .ok (.subReg x y) ∧ decodeWord (0x8#4 ++ x ++ y ++ 0x7#4) = .ok (.subnReg x y) ∧
    (∃ t, exec (.subReg x y) s = .next t ∧
      FlagAndResult s t x (if (getV s x).toNat > (getV s y).toNat then 1 else 0)
        (((getV s x).toNat + 256 - (getV s y).toNat) % 256)) ∧
    (∃ t, exec (.subnReg x y) s = .next t ∧
      FlagAndResult s t x (if (getV s y).toNat > (getV s x).toNat then 1 else 0)
        (((getV s y).toNat + 256 - (getV s x).toNat) % 256))

/-- SHR and SHL: the source is Vx, or Vy under cosmac; VF is the bit shifted out (R130, R140, R142). -/
def Obligations.ShiftSetsShiftedOutBit : Prop :=
  ∀ (x y : RegIdx) (s : State),
    decodeWord (0x8#4 ++ x ++ y ++ 0x6#4) = .ok (.shr x y) ∧ decodeWord (0x8#4 ++ x ++ y ++ 0xE#4) = .ok (.shl x y) ∧
    ∀ src : Nat, (s.cfg.quirkShift = .modern → src = (getV s x).toNat) → (s.cfg.quirkShift = .cosmac → src = (getV s y).toNat) →
      (∃ t, exec (.shr x y) s = .next t ∧ FlagAndResult s t x (src % 2) (src / 2)) ∧
      (∃ t, exec (.shl x y) s = .next t ∧ FlagAndResult s t x (src / 128) (src * 2 % 256))

/-- RND: the mask of the next draw, whatever the draw is; one draw is used (R145). The draw is a free value (log entry 3). -/
def Obligations.RandomMasksFreshDraw : Prop :=
  ∀ (x : RegIdx) (nn : Byte) (s : State), decodeWord (0xC#4 ++ x ++ nn) = .ok (.rnd x nn) ∧
    ∃ t, exec (.rnd x nn) s = .next t ∧ t.draws = s.draws + 1 ∧ PcAdvanced s t ∧
      (∀ k < 8, (getV t x).getLsbD k = ((Config.rndDraw s.draws).getLsbD k && nn.getLsbD k)) ∧
      { t with pc := s.pc, v := s.v, draws := s.draws } = s ∧ (∀ r, r ≠ x → getV t r = getV s r) ∧ MemSame s t

/-! ## Index register and memory (44_index_memory.md) -/

/-- LD I, ADD I and LD F write I and nothing else; I wraps at 65536, the glyph address uses Vx's low nibble (R150 to R152). -/
def Obligations.IndexRegisterWrites : Prop :=
  ∀ (nnn : Addr) (x : RegIdx) (s : State),
    decodeWord (0xA#4 ++ nnn) = .ok (.ldI nnn) ∧ decodeWord (0xF#4 ++ x ++ 0x1E#8) = .ok (.addI x) ∧
    decodeWord (0xF#4 ++ x ++ 0x29#8) = .ok (.ldF x) ∧
    (∃ t, exec (.ldI nnn) s = .next t ∧ t.index.toNat = nnn.toNat ∧ OnlyIndex s t) ∧
    (∃ t, exec (.addI x) s = .next t ∧ t.index.toNat = (s.index.toNat + (getV s x).toNat) % 65536 ∧ OnlyIndex s t) ∧
    (∃ t, exec (.ldF x) s = .next t ∧ t.index.toNat = 5 * ((getV s x).toNat % 16) ∧ OnlyIndex s t)

/-- LD B: three decimal digits of Vx at I, I + 1, I + 2 modulo 4096, worth Vx together; every other address and all other
state stays (R153). -/
def Obligations.DecimalDigitsAreStored : Prop :=
  ∀ (x : RegIdx) (s : State), decodeWord (0xF#4 ++ x ++ 0x33#8) = .ok (.ldB x) ∧
    (Memory.wf s.cfg.font s.mem = true →
      ∃ t, exec (.ldB x) s = .next t ∧ PcAdvanced s t ∧ { t with pc := s.pc, mem := s.mem } = s ∧
        (readByte t s.index.toNat).toNat = (getV s x).toNat / 100 ∧
        (readByte t (s.index.toNat + 1)).toNat = (getV s x).toNat / 10 % 10 ∧
        (readByte t (s.index.toNat + 2)).toNat = (getV s x).toNat % 10 ∧
        100 * (readByte t s.index.toNat).toNat + 10 * (readByte t (s.index.toNat + 1)).toNat +
          (readByte t (s.index.toNat + 2)).toNat = (getV s x).toNat ∧
        ∀ a, (∀ k < 3, a % 4096 ≠ (s.index.toNat + k) % 4096) → readByte t a = readByte s a)

/-- LD [I],Vx: V[k] at I + k modulo 4096 for k = 0..X; I as the quirk says; all else stays (R154). -/
def Obligations.RegistersAreStored : Prop :=
  ∀ (x : RegIdx) (s : State), decodeWord (0xF#4 ++ x ++ 0x55#8) = .ok (.storeRegs x) ∧
    (Memory.wf s.cfg.font s.mem = true →
      ∃ t, exec (.storeRegs x) s = .next t ∧ PcAdvanced s t ∧
        { t with pc := s.pc, mem := s.mem, index := s.index } = s ∧
        (∀ r : RegIdx, r.toNat ≤ x.toNat → readByte t (s.index.toNat + r.toNat) = getV s r) ∧
        (∀ a, (∀ k ≤ x.toNat, a % 4096 ≠ (s.index.toNat + k) % 4096) → readByte t a = readByte s a) ∧
        (s.cfg.quirkLoadStore = .leave → t.index = s.index) ∧
        (s.cfg.quirkLoadStore = .increment → t.index.toNat = (s.index.toNat + x.toNat + 1) % 65536))

/-- LD Vx,[I]: V[k] from I + k modulo 4096 for k = 0..X; the registers above X and all else stay; I as the quirk says (R155). -/
def Obligations.RegistersAreLoaded : Prop :=
  ∀ (x : RegIdx) (s : State), decodeWord (0xF#4 ++ x ++ 0x65#8) = .ok (.loadRegs x) ∧
    ∃ t, exec (.loadRegs x) s = .next t ∧ PcAdvanced s t ∧ { t with pc := s.pc, v := s.v, index := s.index } = s ∧
      (∀ r : RegIdx, r.toNat ≤ x.toNat → getV t r = readByte s (s.index.toNat + r.toNat)) ∧
      (∀ r : RegIdx, x.toNat < r.toNat → getV t r = getV s r) ∧ MemSame s t ∧
      (s.cfg.quirkLoadStore = .leave → t.index = s.index) ∧
      (s.cfg.quirkLoadStore = .increment → t.index.toNat = (s.index.toNat + x.toNat + 1) % 65536)

/-- FX55, then FX65 with the same X, the same I and those bytes of memory untouched, restores V[0..X] (R156). -/
def Obligations.StoreThenLoadRestores : Prop :=
  ∀ (x : RegIdx) (s t u : State), Memory.wf s.cfg.font s.mem = true → exec (.storeRegs x) s = .next t →
    u.index = s.index → (∀ k ≤ x.toNat, readByte u (s.index.toNat + k) = readByte t (s.index.toNat + k)) →
    ∃ w, exec (.loadRegs x) u = .next w ∧ ∀ r : RegIdx, r.toNat ≤ x.toNat → getV w r = getV s r

/-! ## Timers and keys (45_timers_keys.md) -/

/-- FX07, FX15 and FX18 move a byte between a timer and Vx, and nothing else (R160, R164, R165). -/
def Obligations.TimersAreReadAndWritten : Prop :=
  ∀ (x : RegIdx) (s : State),
    decodeWord (0xF#4 ++ x ++ 0x07#8) = .ok (.ldVxDt x) ∧ decodeWord (0xF#4 ++ x ++ 0x15#8) = .ok (.ldDtVx x) ∧
    decodeWord (0xF#4 ++ x ++ 0x18#8) = .ok (.ldStVx x) ∧
    (∃ t, exec (.ldVxDt x) s = .next t ∧ getV t x = s.dt ∧ OnlyRegs s t [x]) ∧
    (∃ t, exec (.ldDtVx x) s = .next t ∧ t.dt = getV s x ∧ PcAdvanced s t ∧ { t with pc := s.pc, dt := s.dt } = s ∧ MemSame s t) ∧
    (∃ t, exec (.ldStVx x) s = .next t ∧ t.st = getV s x ∧ PcAdvanced s t ∧ { t with pc := s.pc, st := s.st } = s ∧ MemSame s t)

/-- FX0A starts the wait: wait_x, Kbase and status are set, PC stays at the FX0A, Vx is not written (R161). -/
def Obligations.KeyWaitStarts : Prop :=
  ∀ (x : RegIdx) (s : State), decodeWord (0xF#4 ++ x ++ 0x0A#8) = .ok (.ldVxK x) ∧
    ∃ t, exec (.ldVxK x) s = .next t ∧ t.waitX = x ∧ t.kbase = s.keys ∧ t.status = .waitKey ∧ t.pc = s.pc ∧
      { t with waitX := s.waitX, kbase := s.kbase, status := s.status } = s ∧ MemSame s t

/-- A poll completes the FX0A with some newly pressed key, or takes Kbase <- K and keeps waiting when there is none
(R162, R163). Which of several keys it is is a free value, and a completed poll counts as one draw: the count is the model's
own (log entry 4). -/
def Obligations.KeyWaitPolls : Prop :=
  ∀ s : State,
    ((∃ k, newlyPressed s k) → ∃ k t, newlyPressed s k ∧ waitPoll s = (true, t) ∧ (getV t s.waitX).toNat = k.toNat ∧
      PcAdvanced s t ∧ t.status = .run ∧ t.draws = s.draws + 1 ∧ (∀ r, r ≠ s.waitX → getV t r = getV s r) ∧
      { t with v := s.v, pc := s.pc, status := s.status, draws := s.draws } = s ∧ MemSame s t) ∧
    ((∀ k, ¬ newlyPressed s k) → waitPoll s = (false, { s with kbase := s.keys }))

/-- The end of a completed tick: each timer counts down by one and not below 0, then sound_on is ST ≠ 0 and frame is a
copy of G; nothing else changes but the tick's own slot count (R170, R172, R187). -/
def Obligations.TickEndCountsAndPublishes : Prop :=
  ∀ s : State, (endTick s).dt.toNat = s.dt.toNat - 1 ∧ (endTick s).st.toNat = s.st.toNat - 1 ∧
    ((endTick s).soundOn = true ↔ (endTick s).st ≠ 0) ∧ (endTick s).frame = s.grid ∧
    { endTick s with dt := s.dt, st := s.st, soundOn := s.soundOn, frame := s.frame, slotsLeft := s.slotsLeft } = s

/-- ST = n, counted down by k + 1 tick ends with no write between, sounds exactly while k + 1 < n (R173). -/
def Obligations.SoundLastsOneTickLess : Prop :=
  ∀ (s : State) (n : Byte) (k : Nat), s.st = n → ((endTicks (k + 1) s).soundOn = true ↔ k + 1 < n.toNat)

/-! ## Display (46_display.md) -/

/-- CLS makes every cell 0 and changes nothing else, VF included (R180). -/
def Obligations.ClearScreenBlanksGrid : Prop :=
  decodeWord 0x00E0 = .ok .cls ∧
  ∀ s : State, ∃ t, exec .cls s = .next t ∧ PcAdvanced s t ∧ (∀ y < 32, ∀ x < 64, cell t.grid y x = false) ∧
    { t with pc := s.pc, grid := s.grid } = s ∧ MemSame s t

/-- DRW XORs into each cell the pixel the sprite of N rows at I puts there, wrapping or clipped as the quirk says; then VF
is 1 exactly when a lit cell met a lit pixel (R181 to R185). -/
def Obligations.DrawXorsSpriteAndReportsCollision : Prop :=
  ∀ (x y : RegIdx) (n : Nibble) (s : State), decodeWord (0xD#4 ++ x ++ y ++ n) = .ok (.drw x y n) ∧
    ∃ t, exec (.drw x y n) s = .next t ∧ PcAdvanced s t ∧
      { t with pc := s.pc, v := s.v, grid := s.grid } = s ∧ (∀ r, r ≠ 0xF → getV t r = getV s r) ∧ MemSame s t ∧
      (∀ gy < 32, ∀ gx < 64, cell t.grid gy gx = (cell s.grid gy gx ^^
        spritePixel s.cfg.quirkClip (getV s x) (getV s y) (readBytes s s.index.toNat n.toNat) gy gx)) ∧
      ((∃ gy < 32, ∃ gx < 64, cell s.grid gy gx = true ∧
        spritePixel s.cfg.quirkClip (getV s x) (getV s y) (readBytes s s.index.toNat n.toNat) gy gx = true) →
        getV t 0xF = 1) ∧
      ((∀ gy < 32, ∀ gx < 64, ¬ (cell s.grid gy gx = true ∧
        spritePixel s.cfg.quirkClip (getV s x) (getV s y) (readBytes s s.index.toNat n.toNat) gy gx = true)) →
        getV t 0xF = 0)

/-- The same sprite blitted twice at the same origin restores the grid, and the second blit collides exactly when the
first lit a cell (R186). -/
def Obligations.DoubleBlitRestoresGrid : Prop :=
  ∀ (q : ClipQuirk) (x y : Byte) (sprite : List Byte) (g : Grid), sprite.length ≤ 15 →
    (blit q x y sprite (blit q x y sprite g).1).1 = g ∧
    ((blit q x y sprite (blit q x y sprite g).1).2 = true ↔
      ∃ gy < 32, ∃ gx < 64, cell g gy gx = false ∧ cell (blit q x y sprite g).1 gy gx = true)

/-! ## Cycle, tick and faults (40_execution_cycle.md, 60_exceptions.md) -/

/-- In RUN, when the two bytes at PC decode to i, the step is exec of i, and then what the attempt's end adds
(`afterAttempt`); at a tick boundary the beginning of the tick comes first: the lines of this tick, and K <- keys with a
fresh budget (R90, R92, R95, R101). -/
def Obligations.StepRunsDecodedInstruction : Prop :=
  ∀ (s : State) (i : Instr) (rest : List Byte), s.status = .run →
    decode [readByte s s.pc.toNat, readByte s (s.pc.toNat + 1)] = .ok (i, rest) →
    (s.slotsLeft ≠ 0 → step s = Result.andThen (exec i s) fun t => .next (afterAttempt true t)) ∧
    (s.slotsLeft = 0 → (nextPorts s).ports.shutdown = false → (nextPorts s).ports.hostFault = false →
      step s = Result.andThen (exec i (openTick (nextPorts s))) fun t => .next (afterAttempt true t))

/-- In WAIT_KEY the step fetches nothing: it is one poll, and an unsuccessful poll ends the tick (R100, R101, R162). -/
def Obligations.WaitingStepOnlyPolls : Prop :=
  ∀ s : State, s.status = .waitKey →
    (s.slotsLeft ≠ 0 → step s = .next (afterAttempt (waitPoll s).1 (waitPoll s).2)) ∧
    (s.slotsLeft = 0 → (nextPorts s).ports.shutdown = false → (nextPorts s).ports.hostFault = false →
      step s = .next (afterAttempt (waitPoll (openTick (nextPorts s))).1 (waitPoll (openTick (nextPorts s))).2))

/-- An FX0A never completes in the tick in which it starts: within a tick a waiting core's poll fails and ends the tick
(R101). -/
def Obligations.KeyWaitOutlastsItsTick : Prop :=
  ∀ s : State, s.status = .waitKey → WaitOk s → s.slotsLeft ≠ 0 →
    ∃ t, step s = .next t ∧ t.status = .waitKey ∧ t.slotsLeft = 0 ∧ t.v = s.v ∧ t.pc = s.pc

/-- An illegal word faults before PC advances: the cycle enters FAULT with its address and word, and the tick ends without
countdown, sound or frame, whether the word is met within a tick or by the first attempt of a new one, whose beginning (this
tick's lines, K sampled) stands (R90, R99, R201, R203). -/
def Obligations.IllegalWordFaults : Prop :=
  ∀ (s : State) (e : DecodeReject), decodeWord (fetchWord s) = .error e →
    cycle s = .next (Faulted s .illegalInstruction (fetchWord s)) ∧
    (s.status = .run → s.slotsLeft ≠ 0 → step s = .next { Faulted s .illegalInstruction (fetchWord s) with slotsLeft := 0 }) ∧
    (s.status = .run → s.slotsLeft = 0 → (nextPorts s).ports.shutdown = false → (nextPorts s).ports.hostFault = false →
      step s = .next { Faulted (openTick (nextPorts s)) .illegalInstruction (fetchWord s) with slotsLeft := 0 })

/-- A cycle that faults has no other effect than the status and the record: the kind, the instruction's own address and its
word; it is IllegalInstruction exactly when the word is illegal; and the tick ends at once, without countdown, sound or
frame: within a tick, and, second clause, where the fault is met by the first attempt of a new tick (R90, R99, R201). -/
def Obligations.FaultsArePreciseAndEndTheTick : Prop :=
  (∀ s t : State, s.status = .run → cycle s = .next t → t.status = .fault →
    ∃ kind ∈ [FaultKind.illegalInstruction, .stackOverflow, .stackUnderflow], t = Faulted s kind (fetchWord s) ∧
      (kind = .illegalInstruction ↔ ∃ e, decodeWord (fetchWord s) = .error e) ∧
      attempt s = .next { t with slotsLeft := 0 } ∧ (s.slotsLeft ≠ 0 → step s = .next { t with slotsLeft := 0 })) ∧
  (∀ s t : State, s.status = .run → s.slotsLeft = 0 → (nextPorts s).ports.shutdown = false →
    (nextPorts s).ports.hostFault = false → cycle (openTick (nextPorts s)) = .next t → t.status = .fault →
    ∃ kind ∈ [FaultKind.illegalInstruction, .stackOverflow, .stackUnderflow],
      t = Faulted (openTick (nextPorts s)) kind (fetchWord s) ∧
      (kind = .illegalInstruction ↔ ∃ e, decodeWord (fetchWord s) = .error e) ∧
      step s = .next { t with slotsLeft := 0 } ∧ t.pc = s.pc ∧ t.dt = s.dt ∧ t.st = s.st ∧ t.soundOn = s.soundOn ∧
      t.frame = s.frame)

/-- The word fetched has M[PC] as its high byte and M[(PC + 1) mod 4096] as its low one; and a word placed at PC, high byte
first, is the word fetched, with every other address as before (R53, R93). -/
def Obligations.FetchIsBigEndian : Prop :=
  ∀ (s : State) (op : Word),
    (fetchWord s).toNat = 256 * (readByte s s.pc.toNat).toNat + (readByte s ((s.pc.toNat + 1) % 4096)).toNat ∧
    (Memory.wf s.cfg.font s.mem = true → fetchWord (placeAtPc s op) = op ∧ { placeAtPc s op with mem := s.mem } = s ∧
      ∀ a, a % 4096 ≠ s.pc.toNat % 4096 → a % 4096 ≠ (s.pc.toNat + 1) % 4096 → readByte (placeAtPc s op) a = readByte s a)

/-- FAULT and STOPPED are final: a step changes nothing (R103). -/
def Obligations.FaultAndStoppedAreFinal : Prop :=
  ∀ s : State, s.status = .fault ∨ s.status = .stopped → step s = .next s

/-- At a tick boundary a shutdown stops the core with nothing but status changed, and comes before a host_fault; a
host_fault alone enters FAULT with HostUnavailable, PC and opcode 0. Both come before K is sampled (R206, R208, R209). -/
def Obligations.ShutdownAndHostFaultAtBoundary : Prop :=
  ∀ s : State, s.status = .run ∨ s.status = .waitKey → s.slotsLeft = 0 →
    ((nextPorts s).ports.shutdown = true → step s = .next { nextPorts s with status := .stopped }) ∧
    ((nextPorts s).ports.shutdown = false → (nextPorts s).ports.hostFault = true →
      step s = .next (Faulted (nextPorts s) .hostUnavailable 0)) ∧
    { nextPorts s with ports := s.ports, portQueue := s.portQueue } = s

/-- From a tick boundary, the steps up to the next boundary do exactly what the tick procedure of R90 does, which ties the
model's step (log entry 2) to the spec's tick: there is a
number of steps, at most the cycle budget, that ends as `tick` ends, and no earlier step is at a boundary. -/
def Obligations.StepsMakeTheTick : Prop :=
  ∀ s : State, s.slotsLeft = 0 →
    ∃ k, 1 ≤ k ∧ k ≤ s.cfg.cyclesPerTick.val ∧ Host.Core.run Sys2Proof.core k s = tick s ∧
      (∀ t, tick s = .next t → t.slotsLeft = 0) ∧
      ∀ j, 1 ≤ j → j < k → ∃ u : State, Host.Core.run Sys2Proof.core j s = .next u ∧ u.slotsLeft ≠ 0

/-- Within a tick K does not change; a tick that begins samples the keys input (R91). -/
def Obligations.KeysAreConstantWithinTick : Prop :=
  ∀ s t : State, step s = .next t →
    (s.slotsLeft ≠ 0 → t.keys = s.keys) ∧
    (s.slotsLeft = 0 → (s.status = .run ∨ s.status = .waitKey) → (nextPorts s).ports.shutdown = false →
      (nextPorts s).ports.hostFault = false → t.keys = (nextPorts s).ports.keys)

/-! ## Invariants -/

/-- PC below 4096, SP at most 16, stack entries below 4096, canonical memory, budget not overdrawn: every step keeps it
(R24, R26, R27, R42). -/
def Obligations.RangesAreKept : Prop :=
  ∀ s t : State, Ranges s → step s = .next t → Ranges t

/-- The fault record and the waiting FX0A agree with the rest of the state: every step keeps it (R37, R38, R99, R161, R202). -/
def Obligations.RecordAndWaitAreKept : Prop :=
  ∀ s t : State, RecordOk s → WaitOk s → step s = .next t → RecordOk t ∧ WaitOk t

/-- The outputs show ST and G at every tick boundary that ends a completed tick: every step keeps it (R39, R172, R187). -/
def Obligations.OutputsAreKept : Prop :=
  ∀ s t : State, OutputsOk s → step s = .next t → OutputsOk t

/-- Reset meets all the invariants, whatever the parameters. -/
def Obligations.ResetMeetsInvariants : Prop :=
  ∀ cfg : Config, Ranges (State.resetWith cfg) ∧ RecordOk (State.resetWith cfg) ∧ WaitOk (State.resetWith cfg) ∧
    OutputsOk (State.resetWith cfg)

/-- A step from a state in the ranges always answers a next state: the model never stops a run from reset. -/
def Obligations.StepAlwaysAnswers : Prop :=
  ∀ s : State, Ranges s → ∃ t, step s = .next t

/-! ## Whole-machine rules -/

/-- A general register changes only where an instruction names it as its destination, or it is VF and the instruction is
one of the six of R21. -/
def Obligations.RegistersChangeOnlyAsListed : Prop :=
  ∀ (i : Instr) (s t : State) (r : RegIdx), exec i s = .next t → namesDest i r = false →
    (r = 0xF → writesFlag i = false) → getV t r = getV s r

/-- M changes only by FX33 and FX55 (R52). -/
def Obligations.MemoryChangesOnlyByStores : Prop :=
  ∀ (i : Instr) (s t : State), exec i s = .next t → (∀ x, i ≠ .ldB x) → (∀ x, i ≠ .storeRegs x) → t.mem = s.mem ∧ MemSame s t

/-- SP and the stack change only by CALL and RET (R28). -/
def Obligations.StackChangesOnlyByCallAndReturn : Prop :=
  ∀ (i : Instr) (s t : State), exec i s = .next t → (∀ nnn, i ≠ .call nnn) → i ≠ .ret → t.sp = s.sp ∧ t.stack = s.stack

/-- G changes only by CLS and DRW (R33). -/
def Obligations.GridChangesOnlyByClearAndDraw : Prop :=
  ∀ (i : Instr) (s t : State), exec i s = .next t → i ≠ .cls → (∀ x y n, i ≠ .drw x y n) → t.grid = s.grid

/-- The PC every instruction leaves (R98). -/
def Obligations.PcAfterEveryInstruction : Prop :=
  ∀ (i : Instr) (s t : State), exec i s = .next t → t.pc.toNat = nextPc i s

/-- No instruction faults but CALL on a full stack and RET on an empty one (R204, R205). -/
def Obligations.OnlyTheStackFaults : Prop :=
  ∀ (i : Instr) (s t : State), exec i s = .next t → s.status ≠ .fault → t.status = .fault →
    ((∃ nnn, i = .call nnn) ∧ s.sp.toNat = 16) ∨ (i = .ret ∧ s.sp.toNat = 0)

/-- No step changes the parameters of R8. That they ride in the state is the model's choice (log entry 1). -/
def Obligations.ParametersAreKept : Prop :=
  ∀ s t : State, step s = .next t → t.cfg = s.cfg

/-! ## Reset, memory and load (10_state.md, 20_memory.md, 70_reset_and_hazards.md) -/

/-- The reset values of R41, memory byte by byte: the font's glyph d at 5·d to 5·d + 4, and 0 elsewhere (R55); the default
parameters of R8; and the default font's bytes as memory holds them after the default reset, row by row of R56's table, which
the spec takes from general knowledge (log entry 7). The values of R41 that are the spec's own decisions: log entry 6. -/
def Obligations.ResetValues : Prop :=
  (∀ cfg : Config, let s := State.resetWith cfg
    s.pc = 0x200 ∧ s.dt = 0 ∧ s.st = 0 ∧ (∀ r, getV s r = 0) ∧ s.index = 0 ∧ s.sp = 0 ∧
    (∀ k (h : k < 16), s.stack[k] = 0) ∧ (∀ y < 32, ∀ x < 64, cell s.grid y x = false) ∧ s.keys = 0 ∧ s.kbase = 0 ∧
    (∀ d (_ : d < 16), ∀ k (_ : k < 5), readByte s (5 * d + k) = cfg.font[d][k]) ∧
    (∀ a, 0x050 ≤ a → a ≤ 0xFFF → readByte s a = 0) ∧ s.status = .run ∧ s.waitX = 0 ∧ s.faultKind = .none ∧
    s.faultPc = 0 ∧ s.faultOpcode = 0 ∧ (∀ y < 32, ∀ x < 64, cell s.frame y x = false) ∧ s.soundOn = false) ∧
  State.reset = State.resetWith defaultConfig ∧ defaultConfig.font = defaultFont ∧
  defaultConfig.cyclesPerTick.val = 1 ∧ defaultConfig.quirkShift = .modern ∧ defaultConfig.quirkLoadStore = .leave ∧
  defaultConfig.quirkClip = .wrap ∧ defaultConfig.vfDestOrder = .flagThenResult ∧
  (List.range 16).map (fun d => readBytes State.reset (5 * d) 5) = [
    [0xF0, 0x90, 0x90, 0x90, 0xF0], [0x20, 0x60, 0x20, 0x20, 0x70], [0xF0, 0x10, 0xF0, 0x80, 0xF0],
    [0xF0, 0x10, 0xF0, 0x10, 0xF0], [0x90, 0x90, 0xF0, 0x10, 0x10], [0xF0, 0x80, 0xF0, 0x10, 0xF0],
    [0xF0, 0x80, 0xF0, 0x90, 0xF0], [0xF0, 0x10, 0x20, 0x40, 0x40], [0xF0, 0x90, 0xF0, 0x90, 0xF0],
    [0xF0, 0x90, 0xF0, 0x10, 0xF0], [0xF0, 0x90, 0xF0, 0x90, 0x90], [0xE0, 0x90, 0xE0, 0x90, 0xE0],
    [0xF0, 0x80, 0x80, 0x80, 0xF0], [0xE0, 0x90, 0x90, 0x90, 0xE0], [0xF0, 0x80, 0xF0, 0x80, 0xF0],
    [0xF0, 0x80, 0xF0, 0x80, 0x80]]

/-- A read gives the byte last written at that address modulo 4096, and no other address is touched (R51, R58, R60). -/
def Obligations.ReadGivesLastWrite : Prop :=
  ∀ (s : State) (a c : Nat) (b : Byte), Memory.wf s.cfg.font s.mem = true →
    Memory.wf s.cfg.font (writeByte s a b).mem = true ∧ { writeByte s a b with mem := s.mem } = s ∧
    readByte (writeByte s a b) c = if c % 4096 = a % 4096 then b else readByte s c

/-- `load(image)` puts image[k] at 0x200 + k for every k and changes nothing else (R222). -/
def Obligations.LoadPlacesImage : Prop :=
  ∀ (s : State) (image : List Byte), Memory.wf s.cfg.font s.mem = true → image.length ≤ 3584 →
    (∀ k (h : k < image.length), readByte (loadImage s image) (0x200 + k) = image[k]) ∧
    (∀ a, a < 4096 → a < 0x200 ∨ 0x200 + image.length ≤ a → readByte (loadImage s image) a = readByte s a) ∧
    { loadImage s image with mem := s.mem } = s

/-- A byte that FX55 or FX33 stored is the byte a later fetch at its address takes, as the high byte of the word at PC or as
the low byte of the word at the address before (R63). -/
def Obligations.StoredBytesAreFetched : Prop :=
  ∀ (x : RegIdx) (s t u : State), Memory.wf s.cfg.font s.mem = true → MemSame t u →
    (exec (.storeRegs x) s = .next t → ∀ r : RegIdx, r.toNat ≤ x.toNat →
      (u.pc.toNat % 4096 = (s.index.toNat + r.toNat) % 4096 → (fetchWord u).toNat / 256 = (getV s r).toNat) ∧
      ((u.pc.toNat + 1) % 4096 = (s.index.toNat + r.toNat) % 4096 → (fetchWord u).toNat % 256 = (getV s r).toNat)) ∧
    (exec (.ldB x) s = .next t → ∀ k < 3,
      (u.pc.toNat % 4096 = (s.index.toNat + k) % 4096 → (fetchWord u).toNat / 256 = (getV s x).toNat / 10 ^ (2 - k) % 10) ∧
      ((u.pc.toNat + 1) % 4096 = (s.index.toNat + k) % 4096 →
        (fetchWord u).toNat % 256 = (getV s x).toNat / 10 ^ (2 - k) % 10))
end

