-- ==== Sys2Proof/Laws/State.lean ====
section
/-! SUPPORT. What each named update does to each field of State: one lemma per field per update, so that no proof
unfolds a record update. An update whose definition recurses or branches first gets one equation that says which fields
it may change. -/

namespace Sys2Proof.Machine

/-! ### setV -/

@[simp] theorem setV_cfg (s : State) (x : RegIdx) (b : Byte) : (setV s x b).cfg = s.cfg := rfl
@[simp] theorem setV_v (s : State) (x : RegIdx) (b : Byte) : (setV s x b).v = s.v.set x.toNat b x.isLt := rfl
@[simp] theorem setV_index (s : State) (x : RegIdx) (b : Byte) : (setV s x b).index = s.index := rfl
@[simp] theorem setV_pc (s : State) (x : RegIdx) (b : Byte) : (setV s x b).pc = s.pc := rfl
@[simp] theorem setV_stack (s : State) (x : RegIdx) (b : Byte) : (setV s x b).stack = s.stack := rfl
@[simp] theorem setV_sp (s : State) (x : RegIdx) (b : Byte) : (setV s x b).sp = s.sp := rfl
@[simp] theorem setV_dt (s : State) (x : RegIdx) (b : Byte) : (setV s x b).dt = s.dt := rfl
@[simp] theorem setV_st (s : State) (x : RegIdx) (b : Byte) : (setV s x b).st = s.st := rfl
@[simp] theorem setV_mem (s : State) (x : RegIdx) (b : Byte) : (setV s x b).mem = s.mem := rfl
@[simp] theorem setV_grid (s : State) (x : RegIdx) (b : Byte) : (setV s x b).grid = s.grid := rfl
@[simp] theorem setV_keys (s : State) (x : RegIdx) (b : Byte) : (setV s x b).keys = s.keys := rfl
@[simp] theorem setV_status (s : State) (x : RegIdx) (b : Byte) : (setV s x b).status = s.status := rfl
@[simp] theorem setV_waitX (s : State) (x : RegIdx) (b : Byte) : (setV s x b).waitX = s.waitX := rfl
@[simp] theorem setV_kbase (s : State) (x : RegIdx) (b : Byte) : (setV s x b).kbase = s.kbase := rfl
@[simp] theorem setV_faultKind (s : State) (x : RegIdx) (b : Byte) : (setV s x b).faultKind = s.faultKind := rfl
@[simp] theorem setV_faultPc (s : State) (x : RegIdx) (b : Byte) : (setV s x b).faultPc = s.faultPc := rfl
@[simp] theorem setV_faultOpcode (s : State) (x : RegIdx) (b : Byte) : (setV s x b).faultOpcode = s.faultOpcode := rfl
@[simp] theorem setV_frame (s : State) (x : RegIdx) (b : Byte) : (setV s x b).frame = s.frame := rfl
@[simp] theorem setV_soundOn (s : State) (x : RegIdx) (b : Byte) : (setV s x b).soundOn = s.soundOn := rfl
@[simp] theorem setV_ports (s : State) (x : RegIdx) (b : Byte) : (setV s x b).ports = s.ports := rfl
@[simp] theorem setV_portQueue (s : State) (x : RegIdx) (b : Byte) : (setV s x b).portQueue = s.portQueue := rfl
@[simp] theorem setV_slotsLeft (s : State) (x : RegIdx) (b : Byte) : (setV s x b).slotsLeft = s.slotsLeft := rfl
@[simp] theorem setV_draws (s : State) (x : RegIdx) (b : Byte) : (setV s x b).draws = s.draws := rfl
@[simp] theorem setV_sysPulses (s : State) (x : RegIdx) (b : Byte) : (setV s x b).sysPulses = s.sysPulses := rfl

/-! ### setIndex -/

@[simp] theorem setIndex_cfg (s : State) (w : Word) : (setIndex s w).cfg = s.cfg := rfl
@[simp] theorem setIndex_v (s : State) (w : Word) : (setIndex s w).v = s.v := rfl
@[simp] theorem setIndex_index (s : State) (w : Word) : (setIndex s w).index = w := rfl
@[simp] theorem setIndex_pc (s : State) (w : Word) : (setIndex s w).pc = s.pc := rfl
@[simp] theorem setIndex_stack (s : State) (w : Word) : (setIndex s w).stack = s.stack := rfl
@[simp] theorem setIndex_sp (s : State) (w : Word) : (setIndex s w).sp = s.sp := rfl
@[simp] theorem setIndex_dt (s : State) (w : Word) : (setIndex s w).dt = s.dt := rfl
@[simp] theorem setIndex_st (s : State) (w : Word) : (setIndex s w).st = s.st := rfl
@[simp] theorem setIndex_mem (s : State) (w : Word) : (setIndex s w).mem = s.mem := rfl
@[simp] theorem setIndex_grid (s : State) (w : Word) : (setIndex s w).grid = s.grid := rfl
@[simp] theorem setIndex_keys (s : State) (w : Word) : (setIndex s w).keys = s.keys := rfl
@[simp] theorem setIndex_status (s : State) (w : Word) : (setIndex s w).status = s.status := rfl
@[simp] theorem setIndex_waitX (s : State) (w : Word) : (setIndex s w).waitX = s.waitX := rfl
@[simp] theorem setIndex_kbase (s : State) (w : Word) : (setIndex s w).kbase = s.kbase := rfl
@[simp] theorem setIndex_faultKind (s : State) (w : Word) : (setIndex s w).faultKind = s.faultKind := rfl
@[simp] theorem setIndex_faultPc (s : State) (w : Word) : (setIndex s w).faultPc = s.faultPc := rfl
@[simp] theorem setIndex_faultOpcode (s : State) (w : Word) : (setIndex s w).faultOpcode = s.faultOpcode := rfl
@[simp] theorem setIndex_frame (s : State) (w : Word) : (setIndex s w).frame = s.frame := rfl
@[simp] theorem setIndex_soundOn (s : State) (w : Word) : (setIndex s w).soundOn = s.soundOn := rfl
@[simp] theorem setIndex_ports (s : State) (w : Word) : (setIndex s w).ports = s.ports := rfl
@[simp] theorem setIndex_portQueue (s : State) (w : Word) : (setIndex s w).portQueue = s.portQueue := rfl
@[simp] theorem setIndex_slotsLeft (s : State) (w : Word) : (setIndex s w).slotsLeft = s.slotsLeft := rfl
@[simp] theorem setIndex_draws (s : State) (w : Word) : (setIndex s w).draws = s.draws := rfl
@[simp] theorem setIndex_sysPulses (s : State) (w : Word) : (setIndex s w).sysPulses = s.sysPulses := rfl

/-! ### setGrid -/

@[simp] theorem setGrid_cfg (s : State) (g : Grid) : (setGrid s g).cfg = s.cfg := rfl
@[simp] theorem setGrid_v (s : State) (g : Grid) : (setGrid s g).v = s.v := rfl
@[simp] theorem setGrid_index (s : State) (g : Grid) : (setGrid s g).index = s.index := rfl
@[simp] theorem setGrid_pc (s : State) (g : Grid) : (setGrid s g).pc = s.pc := rfl
@[simp] theorem setGrid_stack (s : State) (g : Grid) : (setGrid s g).stack = s.stack := rfl
@[simp] theorem setGrid_sp (s : State) (g : Grid) : (setGrid s g).sp = s.sp := rfl
@[simp] theorem setGrid_dt (s : State) (g : Grid) : (setGrid s g).dt = s.dt := rfl
@[simp] theorem setGrid_st (s : State) (g : Grid) : (setGrid s g).st = s.st := rfl
@[simp] theorem setGrid_mem (s : State) (g : Grid) : (setGrid s g).mem = s.mem := rfl
@[simp] theorem setGrid_grid (s : State) (g : Grid) : (setGrid s g).grid = g := rfl
@[simp] theorem setGrid_keys (s : State) (g : Grid) : (setGrid s g).keys = s.keys := rfl
@[simp] theorem setGrid_status (s : State) (g : Grid) : (setGrid s g).status = s.status := rfl
@[simp] theorem setGrid_waitX (s : State) (g : Grid) : (setGrid s g).waitX = s.waitX := rfl
@[simp] theorem setGrid_kbase (s : State) (g : Grid) : (setGrid s g).kbase = s.kbase := rfl
@[simp] theorem setGrid_faultKind (s : State) (g : Grid) : (setGrid s g).faultKind = s.faultKind := rfl
@[simp] theorem setGrid_faultPc (s : State) (g : Grid) : (setGrid s g).faultPc = s.faultPc := rfl
@[simp] theorem setGrid_faultOpcode (s : State) (g : Grid) : (setGrid s g).faultOpcode = s.faultOpcode := rfl
@[simp] theorem setGrid_frame (s : State) (g : Grid) : (setGrid s g).frame = s.frame := rfl
@[simp] theorem setGrid_soundOn (s : State) (g : Grid) : (setGrid s g).soundOn = s.soundOn := rfl
@[simp] theorem setGrid_ports (s : State) (g : Grid) : (setGrid s g).ports = s.ports := rfl
@[simp] theorem setGrid_portQueue (s : State) (g : Grid) : (setGrid s g).portQueue = s.portQueue := rfl
@[simp] theorem setGrid_slotsLeft (s : State) (g : Grid) : (setGrid s g).slotsLeft = s.slotsLeft := rfl
@[simp] theorem setGrid_draws (s : State) (g : Grid) : (setGrid s g).draws = s.draws := rfl
@[simp] theorem setGrid_sysPulses (s : State) (g : Grid) : (setGrid s g).sysPulses = s.sysPulses := rfl

/-! ### setDt -/

@[simp] theorem setDt_cfg (s : State) (b : Byte) : (setDt s b).cfg = s.cfg := rfl
@[simp] theorem setDt_v (s : State) (b : Byte) : (setDt s b).v = s.v := rfl
@[simp] theorem setDt_index (s : State) (b : Byte) : (setDt s b).index = s.index := rfl
@[simp] theorem setDt_pc (s : State) (b : Byte) : (setDt s b).pc = s.pc := rfl
@[simp] theorem setDt_stack (s : State) (b : Byte) : (setDt s b).stack = s.stack := rfl
@[simp] theorem setDt_sp (s : State) (b : Byte) : (setDt s b).sp = s.sp := rfl
@[simp] theorem setDt_dt (s : State) (b : Byte) : (setDt s b).dt = b := rfl
@[simp] theorem setDt_st (s : State) (b : Byte) : (setDt s b).st = s.st := rfl
@[simp] theorem setDt_mem (s : State) (b : Byte) : (setDt s b).mem = s.mem := rfl
@[simp] theorem setDt_grid (s : State) (b : Byte) : (setDt s b).grid = s.grid := rfl
@[simp] theorem setDt_keys (s : State) (b : Byte) : (setDt s b).keys = s.keys := rfl
@[simp] theorem setDt_status (s : State) (b : Byte) : (setDt s b).status = s.status := rfl
@[simp] theorem setDt_waitX (s : State) (b : Byte) : (setDt s b).waitX = s.waitX := rfl
@[simp] theorem setDt_kbase (s : State) (b : Byte) : (setDt s b).kbase = s.kbase := rfl
@[simp] theorem setDt_faultKind (s : State) (b : Byte) : (setDt s b).faultKind = s.faultKind := rfl
@[simp] theorem setDt_faultPc (s : State) (b : Byte) : (setDt s b).faultPc = s.faultPc := rfl
@[simp] theorem setDt_faultOpcode (s : State) (b : Byte) : (setDt s b).faultOpcode = s.faultOpcode := rfl
@[simp] theorem setDt_frame (s : State) (b : Byte) : (setDt s b).frame = s.frame := rfl
@[simp] theorem setDt_soundOn (s : State) (b : Byte) : (setDt s b).soundOn = s.soundOn := rfl
@[simp] theorem setDt_ports (s : State) (b : Byte) : (setDt s b).ports = s.ports := rfl
@[simp] theorem setDt_portQueue (s : State) (b : Byte) : (setDt s b).portQueue = s.portQueue := rfl
@[simp] theorem setDt_slotsLeft (s : State) (b : Byte) : (setDt s b).slotsLeft = s.slotsLeft := rfl
@[simp] theorem setDt_draws (s : State) (b : Byte) : (setDt s b).draws = s.draws := rfl
@[simp] theorem setDt_sysPulses (s : State) (b : Byte) : (setDt s b).sysPulses = s.sysPulses := rfl

/-! ### setSt -/

@[simp] theorem setSt_cfg (s : State) (b : Byte) : (setSt s b).cfg = s.cfg := rfl
@[simp] theorem setSt_v (s : State) (b : Byte) : (setSt s b).v = s.v := rfl
@[simp] theorem setSt_index (s : State) (b : Byte) : (setSt s b).index = s.index := rfl
@[simp] theorem setSt_pc (s : State) (b : Byte) : (setSt s b).pc = s.pc := rfl
@[simp] theorem setSt_stack (s : State) (b : Byte) : (setSt s b).stack = s.stack := rfl
@[simp] theorem setSt_sp (s : State) (b : Byte) : (setSt s b).sp = s.sp := rfl
@[simp] theorem setSt_dt (s : State) (b : Byte) : (setSt s b).dt = s.dt := rfl
@[simp] theorem setSt_st (s : State) (b : Byte) : (setSt s b).st = b := rfl
@[simp] theorem setSt_mem (s : State) (b : Byte) : (setSt s b).mem = s.mem := rfl
@[simp] theorem setSt_grid (s : State) (b : Byte) : (setSt s b).grid = s.grid := rfl
@[simp] theorem setSt_keys (s : State) (b : Byte) : (setSt s b).keys = s.keys := rfl
@[simp] theorem setSt_status (s : State) (b : Byte) : (setSt s b).status = s.status := rfl
@[simp] theorem setSt_waitX (s : State) (b : Byte) : (setSt s b).waitX = s.waitX := rfl
@[simp] theorem setSt_kbase (s : State) (b : Byte) : (setSt s b).kbase = s.kbase := rfl
@[simp] theorem setSt_faultKind (s : State) (b : Byte) : (setSt s b).faultKind = s.faultKind := rfl
@[simp] theorem setSt_faultPc (s : State) (b : Byte) : (setSt s b).faultPc = s.faultPc := rfl
@[simp] theorem setSt_faultOpcode (s : State) (b : Byte) : (setSt s b).faultOpcode = s.faultOpcode := rfl
@[simp] theorem setSt_frame (s : State) (b : Byte) : (setSt s b).frame = s.frame := rfl
@[simp] theorem setSt_soundOn (s : State) (b : Byte) : (setSt s b).soundOn = s.soundOn := rfl
@[simp] theorem setSt_ports (s : State) (b : Byte) : (setSt s b).ports = s.ports := rfl
@[simp] theorem setSt_portQueue (s : State) (b : Byte) : (setSt s b).portQueue = s.portQueue := rfl
@[simp] theorem setSt_slotsLeft (s : State) (b : Byte) : (setSt s b).slotsLeft = s.slotsLeft := rfl
@[simp] theorem setSt_draws (s : State) (b : Byte) : (setSt s b).draws = s.draws := rfl
@[simp] theorem setSt_sysPulses (s : State) (b : Byte) : (setSt s b).sysPulses = s.sysPulses := rfl

/-! ### setPc -/

@[simp] theorem setPc_cfg (s : State) (a : Nat) : (setPc s a).cfg = s.cfg := rfl
@[simp] theorem setPc_v (s : State) (a : Nat) : (setPc s a).v = s.v := rfl
@[simp] theorem setPc_index (s : State) (a : Nat) : (setPc s a).index = s.index := rfl
@[simp] theorem setPc_pc (s : State) (a : Nat) : (setPc s a).pc = BitVec.ofNat 16 (a % 4096) := rfl
@[simp] theorem setPc_stack (s : State) (a : Nat) : (setPc s a).stack = s.stack := rfl
@[simp] theorem setPc_sp (s : State) (a : Nat) : (setPc s a).sp = s.sp := rfl
@[simp] theorem setPc_dt (s : State) (a : Nat) : (setPc s a).dt = s.dt := rfl
@[simp] theorem setPc_st (s : State) (a : Nat) : (setPc s a).st = s.st := rfl
@[simp] theorem setPc_mem (s : State) (a : Nat) : (setPc s a).mem = s.mem := rfl
@[simp] theorem setPc_grid (s : State) (a : Nat) : (setPc s a).grid = s.grid := rfl
@[simp] theorem setPc_keys (s : State) (a : Nat) : (setPc s a).keys = s.keys := rfl
@[simp] theorem setPc_status (s : State) (a : Nat) : (setPc s a).status = s.status := rfl
@[simp] theorem setPc_waitX (s : State) (a : Nat) : (setPc s a).waitX = s.waitX := rfl
@[simp] theorem setPc_kbase (s : State) (a : Nat) : (setPc s a).kbase = s.kbase := rfl
@[simp] theorem setPc_faultKind (s : State) (a : Nat) : (setPc s a).faultKind = s.faultKind := rfl
@[simp] theorem setPc_faultPc (s : State) (a : Nat) : (setPc s a).faultPc = s.faultPc := rfl
@[simp] theorem setPc_faultOpcode (s : State) (a : Nat) : (setPc s a).faultOpcode = s.faultOpcode := rfl
@[simp] theorem setPc_frame (s : State) (a : Nat) : (setPc s a).frame = s.frame := rfl
@[simp] theorem setPc_soundOn (s : State) (a : Nat) : (setPc s a).soundOn = s.soundOn := rfl
@[simp] theorem setPc_ports (s : State) (a : Nat) : (setPc s a).ports = s.ports := rfl
@[simp] theorem setPc_portQueue (s : State) (a : Nat) : (setPc s a).portQueue = s.portQueue := rfl
@[simp] theorem setPc_slotsLeft (s : State) (a : Nat) : (setPc s a).slotsLeft = s.slotsLeft := rfl
@[simp] theorem setPc_draws (s : State) (a : Nat) : (setPc s a).draws = s.draws := rfl
@[simp] theorem setPc_sysPulses (s : State) (a : Nat) : (setPc s a).sysPulses = s.sysPulses := rfl

/-! ### advance -/

@[simp] theorem advance_cfg (s : State) : (advance s).cfg = s.cfg := rfl
@[simp] theorem advance_v (s : State) : (advance s).v = s.v := rfl
@[simp] theorem advance_index (s : State) : (advance s).index = s.index := rfl
@[simp] theorem advance_pc (s : State) : (advance s).pc = BitVec.ofNat 16 ((s.pc.toNat + 2) % 4096) := rfl
@[simp] theorem advance_stack (s : State) : (advance s).stack = s.stack := rfl
@[simp] theorem advance_sp (s : State) : (advance s).sp = s.sp := rfl
@[simp] theorem advance_dt (s : State) : (advance s).dt = s.dt := rfl
@[simp] theorem advance_st (s : State) : (advance s).st = s.st := rfl
@[simp] theorem advance_mem (s : State) : (advance s).mem = s.mem := rfl
@[simp] theorem advance_grid (s : State) : (advance s).grid = s.grid := rfl
@[simp] theorem advance_keys (s : State) : (advance s).keys = s.keys := rfl
@[simp] theorem advance_status (s : State) : (advance s).status = s.status := rfl
@[simp] theorem advance_waitX (s : State) : (advance s).waitX = s.waitX := rfl
@[simp] theorem advance_kbase (s : State) : (advance s).kbase = s.kbase := rfl
@[simp] theorem advance_faultKind (s : State) : (advance s).faultKind = s.faultKind := rfl
@[simp] theorem advance_faultPc (s : State) : (advance s).faultPc = s.faultPc := rfl
@[simp] theorem advance_faultOpcode (s : State) : (advance s).faultOpcode = s.faultOpcode := rfl
@[simp] theorem advance_frame (s : State) : (advance s).frame = s.frame := rfl
@[simp] theorem advance_soundOn (s : State) : (advance s).soundOn = s.soundOn := rfl
@[simp] theorem advance_ports (s : State) : (advance s).ports = s.ports := rfl
@[simp] theorem advance_portQueue (s : State) : (advance s).portQueue = s.portQueue := rfl
@[simp] theorem advance_slotsLeft (s : State) : (advance s).slotsLeft = s.slotsLeft := rfl
@[simp] theorem advance_draws (s : State) : (advance s).draws = s.draws := rfl
@[simp] theorem advance_sysPulses (s : State) : (advance s).sysPulses = s.sysPulses := rfl

/-! ### jumpTo -/

@[simp] theorem jumpTo_cfg (s : State) (w : Word) : (jumpTo s w).cfg = s.cfg := rfl
@[simp] theorem jumpTo_v (s : State) (w : Word) : (jumpTo s w).v = s.v := rfl
@[simp] theorem jumpTo_index (s : State) (w : Word) : (jumpTo s w).index = s.index := rfl
@[simp] theorem jumpTo_pc (s : State) (w : Word) : (jumpTo s w).pc = w := rfl
@[simp] theorem jumpTo_stack (s : State) (w : Word) : (jumpTo s w).stack = s.stack := rfl
@[simp] theorem jumpTo_sp (s : State) (w : Word) : (jumpTo s w).sp = s.sp := rfl
@[simp] theorem jumpTo_dt (s : State) (w : Word) : (jumpTo s w).dt = s.dt := rfl
@[simp] theorem jumpTo_st (s : State) (w : Word) : (jumpTo s w).st = s.st := rfl
@[simp] theorem jumpTo_mem (s : State) (w : Word) : (jumpTo s w).mem = s.mem := rfl
@[simp] theorem jumpTo_grid (s : State) (w : Word) : (jumpTo s w).grid = s.grid := rfl
@[simp] theorem jumpTo_keys (s : State) (w : Word) : (jumpTo s w).keys = s.keys := rfl
@[simp] theorem jumpTo_status (s : State) (w : Word) : (jumpTo s w).status = s.status := rfl
@[simp] theorem jumpTo_waitX (s : State) (w : Word) : (jumpTo s w).waitX = s.waitX := rfl
@[simp] theorem jumpTo_kbase (s : State) (w : Word) : (jumpTo s w).kbase = s.kbase := rfl
@[simp] theorem jumpTo_faultKind (s : State) (w : Word) : (jumpTo s w).faultKind = s.faultKind := rfl
@[simp] theorem jumpTo_faultPc (s : State) (w : Word) : (jumpTo s w).faultPc = s.faultPc := rfl
@[simp] theorem jumpTo_faultOpcode (s : State) (w : Word) : (jumpTo s w).faultOpcode = s.faultOpcode := rfl
@[simp] theorem jumpTo_frame (s : State) (w : Word) : (jumpTo s w).frame = s.frame := rfl
@[simp] theorem jumpTo_soundOn (s : State) (w : Word) : (jumpTo s w).soundOn = s.soundOn := rfl
@[simp] theorem jumpTo_ports (s : State) (w : Word) : (jumpTo s w).ports = s.ports := rfl
@[simp] theorem jumpTo_portQueue (s : State) (w : Word) : (jumpTo s w).portQueue = s.portQueue := rfl
@[simp] theorem jumpTo_slotsLeft (s : State) (w : Word) : (jumpTo s w).slotsLeft = s.slotsLeft := rfl
@[simp] theorem jumpTo_draws (s : State) (w : Word) : (jumpTo s w).draws = s.draws := rfl
@[simp] theorem jumpTo_sysPulses (s : State) (w : Word) : (jumpTo s w).sysPulses = s.sysPulses := rfl

/-! ### takeDraw -/

@[simp] theorem takeDraw_cfg (s : State) : (takeDraw s).cfg = s.cfg := rfl
@[simp] theorem takeDraw_v (s : State) : (takeDraw s).v = s.v := rfl
@[simp] theorem takeDraw_index (s : State) : (takeDraw s).index = s.index := rfl
@[simp] theorem takeDraw_pc (s : State) : (takeDraw s).pc = s.pc := rfl
@[simp] theorem takeDraw_stack (s : State) : (takeDraw s).stack = s.stack := rfl
@[simp] theorem takeDraw_sp (s : State) : (takeDraw s).sp = s.sp := rfl
@[simp] theorem takeDraw_dt (s : State) : (takeDraw s).dt = s.dt := rfl
@[simp] theorem takeDraw_st (s : State) : (takeDraw s).st = s.st := rfl
@[simp] theorem takeDraw_mem (s : State) : (takeDraw s).mem = s.mem := rfl
@[simp] theorem takeDraw_grid (s : State) : (takeDraw s).grid = s.grid := rfl
@[simp] theorem takeDraw_keys (s : State) : (takeDraw s).keys = s.keys := rfl
@[simp] theorem takeDraw_status (s : State) : (takeDraw s).status = s.status := rfl
@[simp] theorem takeDraw_waitX (s : State) : (takeDraw s).waitX = s.waitX := rfl
@[simp] theorem takeDraw_kbase (s : State) : (takeDraw s).kbase = s.kbase := rfl
@[simp] theorem takeDraw_faultKind (s : State) : (takeDraw s).faultKind = s.faultKind := rfl
@[simp] theorem takeDraw_faultPc (s : State) : (takeDraw s).faultPc = s.faultPc := rfl
@[simp] theorem takeDraw_faultOpcode (s : State) : (takeDraw s).faultOpcode = s.faultOpcode := rfl
@[simp] theorem takeDraw_frame (s : State) : (takeDraw s).frame = s.frame := rfl
@[simp] theorem takeDraw_soundOn (s : State) : (takeDraw s).soundOn = s.soundOn := rfl
@[simp] theorem takeDraw_ports (s : State) : (takeDraw s).ports = s.ports := rfl
@[simp] theorem takeDraw_portQueue (s : State) : (takeDraw s).portQueue = s.portQueue := rfl
@[simp] theorem takeDraw_slotsLeft (s : State) : (takeDraw s).slotsLeft = s.slotsLeft := rfl
@[simp] theorem takeDraw_draws (s : State) : (takeDraw s).draws = s.draws + 1 := rfl
@[simp] theorem takeDraw_sysPulses (s : State) : (takeDraw s).sysPulses = s.sysPulses := rfl

/-! ### raiseFault -/

@[simp] theorem raiseFault_cfg (s : State) (kind : FaultKind) (pc op : Word) : (raiseFault kind pc op s).cfg = s.cfg := rfl
@[simp] theorem raiseFault_v (s : State) (kind : FaultKind) (pc op : Word) : (raiseFault kind pc op s).v = s.v := rfl
@[simp] theorem raiseFault_index (s : State) (kind : FaultKind) (pc op : Word) : (raiseFault kind pc op s).index = s.index := rfl
@[simp] theorem raiseFault_pc (s : State) (kind : FaultKind) (pc op : Word) : (raiseFault kind pc op s).pc = s.pc := rfl
@[simp] theorem raiseFault_stack (s : State) (kind : FaultKind) (pc op : Word) : (raiseFault kind pc op s).stack = s.stack := rfl
@[simp] theorem raiseFault_sp (s : State) (kind : FaultKind) (pc op : Word) : (raiseFault kind pc op s).sp = s.sp := rfl
@[simp] theorem raiseFault_dt (s : State) (kind : FaultKind) (pc op : Word) : (raiseFault kind pc op s).dt = s.dt := rfl
@[simp] theorem raiseFault_st (s : State) (kind : FaultKind) (pc op : Word) : (raiseFault kind pc op s).st = s.st := rfl
@[simp] theorem raiseFault_mem (s : State) (kind : FaultKind) (pc op : Word) : (raiseFault kind pc op s).mem = s.mem := rfl
@[simp] theorem raiseFault_grid (s : State) (kind : FaultKind) (pc op : Word) : (raiseFault kind pc op s).grid = s.grid := rfl
@[simp] theorem raiseFault_keys (s : State) (kind : FaultKind) (pc op : Word) : (raiseFault kind pc op s).keys = s.keys := rfl
@[simp] theorem raiseFault_status (s : State) (kind : FaultKind) (pc op : Word) : (raiseFault kind pc op s).status = .fault := rfl
@[simp] theorem raiseFault_waitX (s : State) (kind : FaultKind) (pc op : Word) : (raiseFault kind pc op s).waitX = s.waitX := rfl
@[simp] theorem raiseFault_kbase (s : State) (kind : FaultKind) (pc op : Word) : (raiseFault kind pc op s).kbase = s.kbase := rfl
@[simp] theorem raiseFault_faultKind (s : State) (kind : FaultKind) (pc op : Word) : (raiseFault kind pc op s).faultKind = kind := rfl
@[simp] theorem raiseFault_faultPc (s : State) (kind : FaultKind) (pc op : Word) : (raiseFault kind pc op s).faultPc = pc := rfl
@[simp] theorem raiseFault_faultOpcode (s : State) (kind : FaultKind) (pc op : Word) : (raiseFault kind pc op s).faultOpcode = op := rfl
@[simp] theorem raiseFault_frame (s : State) (kind : FaultKind) (pc op : Word) : (raiseFault kind pc op s).frame = s.frame := rfl
@[simp] theorem raiseFault_soundOn (s : State) (kind : FaultKind) (pc op : Word) : (raiseFault kind pc op s).soundOn = s.soundOn := rfl
@[simp] theorem raiseFault_ports (s : State) (kind : FaultKind) (pc op : Word) : (raiseFault kind pc op s).ports = s.ports := rfl
@[simp] theorem raiseFault_portQueue (s : State) (kind : FaultKind) (pc op : Word) : (raiseFault kind pc op s).portQueue = s.portQueue := rfl
@[simp] theorem raiseFault_slotsLeft (s : State) (kind : FaultKind) (pc op : Word) : (raiseFault kind pc op s).slotsLeft = s.slotsLeft := rfl
@[simp] theorem raiseFault_draws (s : State) (kind : FaultKind) (pc op : Word) : (raiseFault kind pc op s).draws = s.draws := rfl
@[simp] theorem raiseFault_sysPulses (s : State) (kind : FaultKind) (pc op : Word) : (raiseFault kind pc op s).sysPulses = s.sysPulses := rfl

/-! ### writeByte -/

@[simp] theorem writeByte_cfg (s : State) (a : Nat) (b : Byte) : (writeByte s a b).cfg = s.cfg := rfl
@[simp] theorem writeByte_v (s : State) (a : Nat) (b : Byte) : (writeByte s a b).v = s.v := rfl
@[simp] theorem writeByte_index (s : State) (a : Nat) (b : Byte) : (writeByte s a b).index = s.index := rfl
@[simp] theorem writeByte_pc (s : State) (a : Nat) (b : Byte) : (writeByte s a b).pc = s.pc := rfl
@[simp] theorem writeByte_stack (s : State) (a : Nat) (b : Byte) : (writeByte s a b).stack = s.stack := rfl
@[simp] theorem writeByte_sp (s : State) (a : Nat) (b : Byte) : (writeByte s a b).sp = s.sp := rfl
@[simp] theorem writeByte_dt (s : State) (a : Nat) (b : Byte) : (writeByte s a b).dt = s.dt := rfl
@[simp] theorem writeByte_st (s : State) (a : Nat) (b : Byte) : (writeByte s a b).st = s.st := rfl
@[simp] theorem writeByte_mem (s : State) (a : Nat) (b : Byte) : (writeByte s a b).mem = Memory.insert (resetByte s.cfg.font (a % 4096)) s.mem (a % 4096) b := rfl
@[simp] theorem writeByte_grid (s : State) (a : Nat) (b : Byte) : (writeByte s a b).grid = s.grid := rfl
@[simp] theorem writeByte_keys (s : State) (a : Nat) (b : Byte) : (writeByte s a b).keys = s.keys := rfl
@[simp] theorem writeByte_status (s : State) (a : Nat) (b : Byte) : (writeByte s a b).status = s.status := rfl
@[simp] theorem writeByte_waitX (s : State) (a : Nat) (b : Byte) : (writeByte s a b).waitX = s.waitX := rfl
@[simp] theorem writeByte_kbase (s : State) (a : Nat) (b : Byte) : (writeByte s a b).kbase = s.kbase := rfl
@[simp] theorem writeByte_faultKind (s : State) (a : Nat) (b : Byte) : (writeByte s a b).faultKind = s.faultKind := rfl
@[simp] theorem writeByte_faultPc (s : State) (a : Nat) (b : Byte) : (writeByte s a b).faultPc = s.faultPc := rfl
@[simp] theorem writeByte_faultOpcode (s : State) (a : Nat) (b : Byte) : (writeByte s a b).faultOpcode = s.faultOpcode := rfl
@[simp] theorem writeByte_frame (s : State) (a : Nat) (b : Byte) : (writeByte s a b).frame = s.frame := rfl
@[simp] theorem writeByte_soundOn (s : State) (a : Nat) (b : Byte) : (writeByte s a b).soundOn = s.soundOn := rfl
@[simp] theorem writeByte_ports (s : State) (a : Nat) (b : Byte) : (writeByte s a b).ports = s.ports := rfl
@[simp] theorem writeByte_portQueue (s : State) (a : Nat) (b : Byte) : (writeByte s a b).portQueue = s.portQueue := rfl
@[simp] theorem writeByte_slotsLeft (s : State) (a : Nat) (b : Byte) : (writeByte s a b).slotsLeft = s.slotsLeft := rfl
@[simp] theorem writeByte_draws (s : State) (a : Nat) (b : Byte) : (writeByte s a b).draws = s.draws := rfl
@[simp] theorem writeByte_sysPulses (s : State) (a : Nat) (b : Byte) : (writeByte s a b).sysPulses = s.sysPulses := rfl

/-! ### skipIf -/

/-- `skipIf` changes nothing but pc. -/
theorem skipIf_unchanged (s : State) (c : Bool) :
    skipIf c s = { s with pc := (skipIf c s).pc } := by
  cases c <;> rfl

@[simp] theorem skipIf_cfg (s : State) (c : Bool) : (skipIf c s).cfg = s.cfg := by
  rw [skipIf_unchanged]
@[simp] theorem skipIf_v (s : State) (c : Bool) : (skipIf c s).v = s.v := by
  rw [skipIf_unchanged]
@[simp] theorem skipIf_index (s : State) (c : Bool) : (skipIf c s).index = s.index := by
  rw [skipIf_unchanged]
@[simp] theorem skipIf_stack (s : State) (c : Bool) : (skipIf c s).stack = s.stack := by
  rw [skipIf_unchanged]
@[simp] theorem skipIf_sp (s : State) (c : Bool) : (skipIf c s).sp = s.sp := by
  rw [skipIf_unchanged]
@[simp] theorem skipIf_dt (s : State) (c : Bool) : (skipIf c s).dt = s.dt := by
  rw [skipIf_unchanged]
@[simp] theorem skipIf_st (s : State) (c : Bool) : (skipIf c s).st = s.st := by
  rw [skipIf_unchanged]
@[simp] theorem skipIf_mem (s : State) (c : Bool) : (skipIf c s).mem = s.mem := by
  rw [skipIf_unchanged]
@[simp] theorem skipIf_grid (s : State) (c : Bool) : (skipIf c s).grid = s.grid := by
  rw [skipIf_unchanged]
@[simp] theorem skipIf_keys (s : State) (c : Bool) : (skipIf c s).keys = s.keys := by
  rw [skipIf_unchanged]
@[simp] theorem skipIf_status (s : State) (c : Bool) : (skipIf c s).status = s.status := by
  rw [skipIf_unchanged]
@[simp] theorem skipIf_waitX (s : State) (c : Bool) : (skipIf c s).waitX = s.waitX := by
  rw [skipIf_unchanged]
@[simp] theorem skipIf_kbase (s : State) (c : Bool) : (skipIf c s).kbase = s.kbase := by
  rw [skipIf_unchanged]
@[simp] theorem skipIf_faultKind (s : State) (c : Bool) : (skipIf c s).faultKind = s.faultKind := by
  rw [skipIf_unchanged]
@[simp] theorem skipIf_faultPc (s : State) (c : Bool) : (skipIf c s).faultPc = s.faultPc := by
  rw [skipIf_unchanged]
@[simp] theorem skipIf_faultOpcode (s : State) (c : Bool) : (skipIf c s).faultOpcode = s.faultOpcode := by
  rw [skipIf_unchanged]
@[simp] theorem skipIf_frame (s : State) (c : Bool) : (skipIf c s).frame = s.frame := by
  rw [skipIf_unchanged]
@[simp] theorem skipIf_soundOn (s : State) (c : Bool) : (skipIf c s).soundOn = s.soundOn := by
  rw [skipIf_unchanged]
@[simp] theorem skipIf_ports (s : State) (c : Bool) : (skipIf c s).ports = s.ports := by
  rw [skipIf_unchanged]
@[simp] theorem skipIf_portQueue (s : State) (c : Bool) : (skipIf c s).portQueue = s.portQueue := by
  rw [skipIf_unchanged]
@[simp] theorem skipIf_slotsLeft (s : State) (c : Bool) : (skipIf c s).slotsLeft = s.slotsLeft := by
  rw [skipIf_unchanged]
@[simp] theorem skipIf_draws (s : State) (c : Bool) : (skipIf c s).draws = s.draws := by
  rw [skipIf_unchanged]
@[simp] theorem skipIf_sysPulses (s : State) (c : Bool) : (skipIf c s).sysPulses = s.sysPulses := by
  rw [skipIf_unchanged]

/-! ### pulseSysEvent -/

/-- `pulseSysEvent` changes nothing but sysPulses. -/
theorem pulseSysEvent_unchanged (s : State) :
    pulseSysEvent s = { s with sysPulses := (pulseSysEvent s).sysPulses } := by
  unfold pulseSysEvent
  split <;> rfl

@[simp] theorem pulseSysEvent_cfg (s : State) : (pulseSysEvent s).cfg = s.cfg := by
  rw [pulseSysEvent_unchanged]
@[simp] theorem pulseSysEvent_v (s : State) : (pulseSysEvent s).v = s.v := by
  rw [pulseSysEvent_unchanged]
@[simp] theorem pulseSysEvent_index (s : State) : (pulseSysEvent s).index = s.index := by
  rw [pulseSysEvent_unchanged]
@[simp] theorem pulseSysEvent_pc (s : State) : (pulseSysEvent s).pc = s.pc := by
  rw [pulseSysEvent_unchanged]
@[simp] theorem pulseSysEvent_stack (s : State) : (pulseSysEvent s).stack = s.stack := by
  rw [pulseSysEvent_unchanged]
@[simp] theorem pulseSysEvent_sp (s : State) : (pulseSysEvent s).sp = s.sp := by
  rw [pulseSysEvent_unchanged]
@[simp] theorem pulseSysEvent_dt (s : State) : (pulseSysEvent s).dt = s.dt := by
  rw [pulseSysEvent_unchanged]
@[simp] theorem pulseSysEvent_st (s : State) : (pulseSysEvent s).st = s.st := by
  rw [pulseSysEvent_unchanged]
@[simp] theorem pulseSysEvent_mem (s : State) : (pulseSysEvent s).mem = s.mem := by
  rw [pulseSysEvent_unchanged]
@[simp] theorem pulseSysEvent_grid (s : State) : (pulseSysEvent s).grid = s.grid := by
  rw [pulseSysEvent_unchanged]
@[simp] theorem pulseSysEvent_keys (s : State) : (pulseSysEvent s).keys = s.keys := by
  rw [pulseSysEvent_unchanged]
@[simp] theorem pulseSysEvent_status (s : State) : (pulseSysEvent s).status = s.status := by
  rw [pulseSysEvent_unchanged]
@[simp] theorem pulseSysEvent_waitX (s : State) : (pulseSysEvent s).waitX = s.waitX := by
  rw [pulseSysEvent_unchanged]
@[simp] theorem pulseSysEvent_kbase (s : State) : (pulseSysEvent s).kbase = s.kbase := by
  rw [pulseSysEvent_unchanged]
@[simp] theorem pulseSysEvent_faultKind (s : State) : (pulseSysEvent s).faultKind = s.faultKind := by
  rw [pulseSysEvent_unchanged]
@[simp] theorem pulseSysEvent_faultPc (s : State) : (pulseSysEvent s).faultPc = s.faultPc := by
  rw [pulseSysEvent_unchanged]
@[simp] theorem pulseSysEvent_faultOpcode (s : State) : (pulseSysEvent s).faultOpcode = s.faultOpcode := by
  rw [pulseSysEvent_unchanged]
@[simp] theorem pulseSysEvent_frame (s : State) : (pulseSysEvent s).frame = s.frame := by
  rw [pulseSysEvent_unchanged]
@[simp] theorem pulseSysEvent_soundOn (s : State) : (pulseSysEvent s).soundOn = s.soundOn := by
  rw [pulseSysEvent_unchanged]
@[simp] theorem pulseSysEvent_ports (s : State) : (pulseSysEvent s).ports = s.ports := by
  rw [pulseSysEvent_unchanged]
@[simp] theorem pulseSysEvent_portQueue (s : State) : (pulseSysEvent s).portQueue = s.portQueue := by
  rw [pulseSysEvent_unchanged]
@[simp] theorem pulseSysEvent_slotsLeft (s : State) : (pulseSysEvent s).slotsLeft = s.slotsLeft := by
  rw [pulseSysEvent_unchanged]
@[simp] theorem pulseSysEvent_draws (s : State) : (pulseSysEvent s).draws = s.draws := by
  rw [pulseSysEvent_unchanged]

/-! ### writeBytes -/

/-- `writeBytes` changes nothing but mem. -/
theorem writeBytes_unchanged (s : State) (a : Nat) (bs : List Byte) :
    writeBytes s a bs = { s with mem := (writeBytes s a bs).mem } := by
  induction bs generalizing s a with
  | nil => rfl
  | cons b bs ih => exact ih (writeByte s a b) (a + 1)

@[simp] theorem writeBytes_cfg (s : State) (a : Nat) (bs : List Byte) : (writeBytes s a bs).cfg = s.cfg := by
  rw [writeBytes_unchanged]
@[simp] theorem writeBytes_v (s : State) (a : Nat) (bs : List Byte) : (writeBytes s a bs).v = s.v := by
  rw [writeBytes_unchanged]
@[simp] theorem writeBytes_index (s : State) (a : Nat) (bs : List Byte) : (writeBytes s a bs).index = s.index := by
  rw [writeBytes_unchanged]
@[simp] theorem writeBytes_pc (s : State) (a : Nat) (bs : List Byte) : (writeBytes s a bs).pc = s.pc := by
  rw [writeBytes_unchanged]
@[simp] theorem writeBytes_stack (s : State) (a : Nat) (bs : List Byte) : (writeBytes s a bs).stack = s.stack := by
  rw [writeBytes_unchanged]
@[simp] theorem writeBytes_sp (s : State) (a : Nat) (bs : List Byte) : (writeBytes s a bs).sp = s.sp := by
  rw [writeBytes_unchanged]
@[simp] theorem writeBytes_dt (s : State) (a : Nat) (bs : List Byte) : (writeBytes s a bs).dt = s.dt := by
  rw [writeBytes_unchanged]
@[simp] theorem writeBytes_st (s : State) (a : Nat) (bs : List Byte) : (writeBytes s a bs).st = s.st := by
  rw [writeBytes_unchanged]
@[simp] theorem writeBytes_grid (s : State) (a : Nat) (bs : List Byte) : (writeBytes s a bs).grid = s.grid := by
  rw [writeBytes_unchanged]
@[simp] theorem writeBytes_keys (s : State) (a : Nat) (bs : List Byte) : (writeBytes s a bs).keys = s.keys := by
  rw [writeBytes_unchanged]
@[simp] theorem writeBytes_status (s : State) (a : Nat) (bs : List Byte) : (writeBytes s a bs).status = s.status := by
  rw [writeBytes_unchanged]
@[simp] theorem writeBytes_waitX (s : State) (a : Nat) (bs : List Byte) : (writeBytes s a bs).waitX = s.waitX := by
  rw [writeBytes_unchanged]
@[simp] theorem writeBytes_kbase (s : State) (a : Nat) (bs : List Byte) : (writeBytes s a bs).kbase = s.kbase := by
  rw [writeBytes_unchanged]
@[simp] theorem writeBytes_faultKind (s : State) (a : Nat) (bs : List Byte) : (writeBytes s a bs).faultKind = s.faultKind := by
  rw [writeBytes_unchanged]
@[simp] theorem writeBytes_faultPc (s : State) (a : Nat) (bs : List Byte) : (writeBytes s a bs).faultPc = s.faultPc := by
  rw [writeBytes_unchanged]
@[simp] theorem writeBytes_faultOpcode (s : State) (a : Nat) (bs : List Byte) : (writeBytes s a bs).faultOpcode = s.faultOpcode := by
  rw [writeBytes_unchanged]
@[simp] theorem writeBytes_frame (s : State) (a : Nat) (bs : List Byte) : (writeBytes s a bs).frame = s.frame := by
  rw [writeBytes_unchanged]
@[simp] theorem writeBytes_soundOn (s : State) (a : Nat) (bs : List Byte) : (writeBytes s a bs).soundOn = s.soundOn := by
  rw [writeBytes_unchanged]
@[simp] theorem writeBytes_ports (s : State) (a : Nat) (bs : List Byte) : (writeBytes s a bs).ports = s.ports := by
  rw [writeBytes_unchanged]
@[simp] theorem writeBytes_portQueue (s : State) (a : Nat) (bs : List Byte) : (writeBytes s a bs).portQueue = s.portQueue := by
  rw [writeBytes_unchanged]
@[simp] theorem writeBytes_slotsLeft (s : State) (a : Nat) (bs : List Byte) : (writeBytes s a bs).slotsLeft = s.slotsLeft := by
  rw [writeBytes_unchanged]
@[simp] theorem writeBytes_draws (s : State) (a : Nat) (bs : List Byte) : (writeBytes s a bs).draws = s.draws := by
  rw [writeBytes_unchanged]
@[simp] theorem writeBytes_sysPulses (s : State) (a : Nat) (bs : List Byte) : (writeBytes s a bs).sysPulses = s.sysPulses := by
  rw [writeBytes_unchanged]

/-! ### setRegsFrom -/

/-- `setRegsFrom` changes nothing but v. -/
theorem setRegsFrom_unchanged (s : State) (k : Nat) (bs : List Byte) :
    setRegsFrom s k bs = { s with v := (setRegsFrom s k bs).v } := by
  induction bs generalizing s k with
  | nil => rfl
  | cons b bs ih =>
    by_cases h : k < 16
    · simpa [setRegsFrom, h] using ih (setV s (BitVec.ofNat 4 k) b) (k + 1)
    · simpa [setRegsFrom, h] using ih s (k + 1)

@[simp] theorem setRegsFrom_cfg (s : State) (k : Nat) (bs : List Byte) : (setRegsFrom s k bs).cfg = s.cfg := by
  rw [setRegsFrom_unchanged]
@[simp] theorem setRegsFrom_index (s : State) (k : Nat) (bs : List Byte) : (setRegsFrom s k bs).index = s.index := by
  rw [setRegsFrom_unchanged]
@[simp] theorem setRegsFrom_pc (s : State) (k : Nat) (bs : List Byte) : (setRegsFrom s k bs).pc = s.pc := by
  rw [setRegsFrom_unchanged]
@[simp] theorem setRegsFrom_stack (s : State) (k : Nat) (bs : List Byte) : (setRegsFrom s k bs).stack = s.stack := by
  rw [setRegsFrom_unchanged]
@[simp] theorem setRegsFrom_sp (s : State) (k : Nat) (bs : List Byte) : (setRegsFrom s k bs).sp = s.sp := by
  rw [setRegsFrom_unchanged]
@[simp] theorem setRegsFrom_dt (s : State) (k : Nat) (bs : List Byte) : (setRegsFrom s k bs).dt = s.dt := by
  rw [setRegsFrom_unchanged]
@[simp] theorem setRegsFrom_st (s : State) (k : Nat) (bs : List Byte) : (setRegsFrom s k bs).st = s.st := by
  rw [setRegsFrom_unchanged]
@[simp] theorem setRegsFrom_mem (s : State) (k : Nat) (bs : List Byte) : (setRegsFrom s k bs).mem = s.mem := by
  rw [setRegsFrom_unchanged]
@[simp] theorem setRegsFrom_grid (s : State) (k : Nat) (bs : List Byte) : (setRegsFrom s k bs).grid = s.grid := by
  rw [setRegsFrom_unchanged]
@[simp] theorem setRegsFrom_keys (s : State) (k : Nat) (bs : List Byte) : (setRegsFrom s k bs).keys = s.keys := by
  rw [setRegsFrom_unchanged]
@[simp] theorem setRegsFrom_status (s : State) (k : Nat) (bs : List Byte) : (setRegsFrom s k bs).status = s.status := by
  rw [setRegsFrom_unchanged]
@[simp] theorem setRegsFrom_waitX (s : State) (k : Nat) (bs : List Byte) : (setRegsFrom s k bs).waitX = s.waitX := by
  rw [setRegsFrom_unchanged]
@[simp] theorem setRegsFrom_kbase (s : State) (k : Nat) (bs : List Byte) : (setRegsFrom s k bs).kbase = s.kbase := by
  rw [setRegsFrom_unchanged]
@[simp] theorem setRegsFrom_faultKind (s : State) (k : Nat) (bs : List Byte) : (setRegsFrom s k bs).faultKind = s.faultKind := by
  rw [setRegsFrom_unchanged]
@[simp] theorem setRegsFrom_faultPc (s : State) (k : Nat) (bs : List Byte) : (setRegsFrom s k bs).faultPc = s.faultPc := by
  rw [setRegsFrom_unchanged]
@[simp] theorem setRegsFrom_faultOpcode (s : State) (k : Nat) (bs : List Byte) : (setRegsFrom s k bs).faultOpcode = s.faultOpcode := by
  rw [setRegsFrom_unchanged]
@[simp] theorem setRegsFrom_frame (s : State) (k : Nat) (bs : List Byte) : (setRegsFrom s k bs).frame = s.frame := by
  rw [setRegsFrom_unchanged]
@[simp] theorem setRegsFrom_soundOn (s : State) (k : Nat) (bs : List Byte) : (setRegsFrom s k bs).soundOn = s.soundOn := by
  rw [setRegsFrom_unchanged]
@[simp] theorem setRegsFrom_ports (s : State) (k : Nat) (bs : List Byte) : (setRegsFrom s k bs).ports = s.ports := by
  rw [setRegsFrom_unchanged]
@[simp] theorem setRegsFrom_portQueue (s : State) (k : Nat) (bs : List Byte) : (setRegsFrom s k bs).portQueue = s.portQueue := by
  rw [setRegsFrom_unchanged]
@[simp] theorem setRegsFrom_slotsLeft (s : State) (k : Nat) (bs : List Byte) : (setRegsFrom s k bs).slotsLeft = s.slotsLeft := by
  rw [setRegsFrom_unchanged]
@[simp] theorem setRegsFrom_draws (s : State) (k : Nat) (bs : List Byte) : (setRegsFrom s k bs).draws = s.draws := by
  rw [setRegsFrom_unchanged]
@[simp] theorem setRegsFrom_sysPulses (s : State) (k : Nat) (bs : List Byte) : (setRegsFrom s k bs).sysPulses = s.sysPulses := by
  rw [setRegsFrom_unchanged]

/-! ### writeFlagResult -/

/-- `writeFlagResult` changes nothing but v. -/
theorem writeFlagResult_unchanged (s : State) (x : RegIdx) (r : FlagResult) :
    writeFlagResult s x r = { s with v := (writeFlagResult s x r).v } := by
  unfold writeFlagResult
  split <;> rfl

@[simp] theorem writeFlagResult_cfg (s : State) (x : RegIdx) (r : FlagResult) : (writeFlagResult s x r).cfg = s.cfg := by
  rw [writeFlagResult_unchanged]
@[simp] theorem writeFlagResult_index (s : State) (x : RegIdx) (r : FlagResult) : (writeFlagResult s x r).index = s.index := by
  rw [writeFlagResult_unchanged]
@[simp] theorem writeFlagResult_pc (s : State) (x : RegIdx) (r : FlagResult) : (writeFlagResult s x r).pc = s.pc := by
  rw [writeFlagResult_unchanged]
@[simp] theorem writeFlagResult_stack (s : State) (x : RegIdx) (r : FlagResult) : (writeFlagResult s x r).stack = s.stack := by
  rw [writeFlagResult_unchanged]
@[simp] theorem writeFlagResult_sp (s : State) (x : RegIdx) (r : FlagResult) : (writeFlagResult s x r).sp = s.sp := by
  rw [writeFlagResult_unchanged]
@[simp] theorem writeFlagResult_dt (s : State) (x : RegIdx) (r : FlagResult) : (writeFlagResult s x r).dt = s.dt := by
  rw [writeFlagResult_unchanged]
@[simp] theorem writeFlagResult_st (s : State) (x : RegIdx) (r : FlagResult) : (writeFlagResult s x r).st = s.st := by
  rw [writeFlagResult_unchanged]
@[simp] theorem writeFlagResult_mem (s : State) (x : RegIdx) (r : FlagResult) : (writeFlagResult s x r).mem = s.mem := by
  rw [writeFlagResult_unchanged]
@[simp] theorem writeFlagResult_grid (s : State) (x : RegIdx) (r : FlagResult) : (writeFlagResult s x r).grid = s.grid := by
  rw [writeFlagResult_unchanged]
@[simp] theorem writeFlagResult_keys (s : State) (x : RegIdx) (r : FlagResult) : (writeFlagResult s x r).keys = s.keys := by
  rw [writeFlagResult_unchanged]
@[simp] theorem writeFlagResult_status (s : State) (x : RegIdx) (r : FlagResult) : (writeFlagResult s x r).status = s.status := by
  rw [writeFlagResult_unchanged]
@[simp] theorem writeFlagResult_waitX (s : State) (x : RegIdx) (r : FlagResult) : (writeFlagResult s x r).waitX = s.waitX := by
  rw [writeFlagResult_unchanged]
@[simp] theorem writeFlagResult_kbase (s : State) (x : RegIdx) (r : FlagResult) : (writeFlagResult s x r).kbase = s.kbase := by
  rw [writeFlagResult_unchanged]
@[simp] theorem writeFlagResult_faultKind (s : State) (x : RegIdx) (r : FlagResult) : (writeFlagResult s x r).faultKind = s.faultKind := by
  rw [writeFlagResult_unchanged]
@[simp] theorem writeFlagResult_faultPc (s : State) (x : RegIdx) (r : FlagResult) : (writeFlagResult s x r).faultPc = s.faultPc := by
  rw [writeFlagResult_unchanged]
@[simp] theorem writeFlagResult_faultOpcode (s : State) (x : RegIdx) (r : FlagResult) : (writeFlagResult s x r).faultOpcode = s.faultOpcode := by
  rw [writeFlagResult_unchanged]
@[simp] theorem writeFlagResult_frame (s : State) (x : RegIdx) (r : FlagResult) : (writeFlagResult s x r).frame = s.frame := by
  rw [writeFlagResult_unchanged]
@[simp] theorem writeFlagResult_soundOn (s : State) (x : RegIdx) (r : FlagResult) : (writeFlagResult s x r).soundOn = s.soundOn := by
  rw [writeFlagResult_unchanged]
@[simp] theorem writeFlagResult_ports (s : State) (x : RegIdx) (r : FlagResult) : (writeFlagResult s x r).ports = s.ports := by
  rw [writeFlagResult_unchanged]
@[simp] theorem writeFlagResult_portQueue (s : State) (x : RegIdx) (r : FlagResult) : (writeFlagResult s x r).portQueue = s.portQueue := by
  rw [writeFlagResult_unchanged]
@[simp] theorem writeFlagResult_slotsLeft (s : State) (x : RegIdx) (r : FlagResult) : (writeFlagResult s x r).slotsLeft = s.slotsLeft := by
  rw [writeFlagResult_unchanged]
@[simp] theorem writeFlagResult_draws (s : State) (x : RegIdx) (r : FlagResult) : (writeFlagResult s x r).draws = s.draws := by
  rw [writeFlagResult_unchanged]
@[simp] theorem writeFlagResult_sysPulses (s : State) (x : RegIdx) (r : FlagResult) : (writeFlagResult s x r).sysPulses = s.sysPulses := by
  rw [writeFlagResult_unchanged]

/-! ### nextPorts -/

/-- `nextPorts` changes nothing but ports and portQueue. -/
theorem nextPorts_unchanged (s : State) :
    nextPorts s = { s with ports := (nextPorts s).ports, portQueue := (nextPorts s).portQueue } := by
  unfold nextPorts
  split <;> rfl

@[simp] theorem nextPorts_cfg (s : State) : (nextPorts s).cfg = s.cfg := by
  rw [nextPorts_unchanged]
@[simp] theorem nextPorts_v (s : State) : (nextPorts s).v = s.v := by
  rw [nextPorts_unchanged]
@[simp] theorem nextPorts_index (s : State) : (nextPorts s).index = s.index := by
  rw [nextPorts_unchanged]
@[simp] theorem nextPorts_pc (s : State) : (nextPorts s).pc = s.pc := by
  rw [nextPorts_unchanged]
@[simp] theorem nextPorts_stack (s : State) : (nextPorts s).stack = s.stack := by
  rw [nextPorts_unchanged]
@[simp] theorem nextPorts_sp (s : State) : (nextPorts s).sp = s.sp := by
  rw [nextPorts_unchanged]
@[simp] theorem nextPorts_dt (s : State) : (nextPorts s).dt = s.dt := by
  rw [nextPorts_unchanged]
@[simp] theorem nextPorts_st (s : State) : (nextPorts s).st = s.st := by
  rw [nextPorts_unchanged]
@[simp] theorem nextPorts_mem (s : State) : (nextPorts s).mem = s.mem := by
  rw [nextPorts_unchanged]
@[simp] theorem nextPorts_grid (s : State) : (nextPorts s).grid = s.grid := by
  rw [nextPorts_unchanged]
@[simp] theorem nextPorts_keys (s : State) : (nextPorts s).keys = s.keys := by
  rw [nextPorts_unchanged]
@[simp] theorem nextPorts_status (s : State) : (nextPorts s).status = s.status := by
  rw [nextPorts_unchanged]
@[simp] theorem nextPorts_waitX (s : State) : (nextPorts s).waitX = s.waitX := by
  rw [nextPorts_unchanged]
@[simp] theorem nextPorts_kbase (s : State) : (nextPorts s).kbase = s.kbase := by
  rw [nextPorts_unchanged]
@[simp] theorem nextPorts_faultKind (s : State) : (nextPorts s).faultKind = s.faultKind := by
  rw [nextPorts_unchanged]
@[simp] theorem nextPorts_faultPc (s : State) : (nextPorts s).faultPc = s.faultPc := by
  rw [nextPorts_unchanged]
@[simp] theorem nextPorts_faultOpcode (s : State) : (nextPorts s).faultOpcode = s.faultOpcode := by
  rw [nextPorts_unchanged]
@[simp] theorem nextPorts_frame (s : State) : (nextPorts s).frame = s.frame := by
  rw [nextPorts_unchanged]
@[simp] theorem nextPorts_soundOn (s : State) : (nextPorts s).soundOn = s.soundOn := by
  rw [nextPorts_unchanged]
@[simp] theorem nextPorts_slotsLeft (s : State) : (nextPorts s).slotsLeft = s.slotsLeft := by
  rw [nextPorts_unchanged]
@[simp] theorem nextPorts_draws (s : State) : (nextPorts s).draws = s.draws := by
  rw [nextPorts_unchanged]
@[simp] theorem nextPorts_sysPulses (s : State) : (nextPorts s).sysPulses = s.sysPulses := by
  rw [nextPorts_unchanged]

/-! ### V and M seen through the updates that leave them alone -/

@[simp] theorem readByte_setV (s : State) (x : RegIdx) (b : Byte) (d : Nat) : readByte (setV s x b) d = readByte s d := rfl
@[simp] theorem getV_setIndex (s : State) (w : Word) (r : RegIdx) : getV (setIndex s w) r = getV s r := rfl
@[simp] theorem readByte_setIndex (s : State) (w : Word) (d : Nat) : readByte (setIndex s w) d = readByte s d := rfl
@[simp] theorem getV_setGrid (s : State) (g : Grid) (r : RegIdx) : getV (setGrid s g) r = getV s r := rfl
@[simp] theorem readByte_setGrid (s : State) (g : Grid) (d : Nat) : readByte (setGrid s g) d = readByte s d := rfl
@[simp] theorem getV_setDt (s : State) (b : Byte) (r : RegIdx) : getV (setDt s b) r = getV s r := rfl
@[simp] theorem readByte_setDt (s : State) (b : Byte) (d : Nat) : readByte (setDt s b) d = readByte s d := rfl
@[simp] theorem getV_setSt (s : State) (b : Byte) (r : RegIdx) : getV (setSt s b) r = getV s r := rfl
@[simp] theorem readByte_setSt (s : State) (b : Byte) (d : Nat) : readByte (setSt s b) d = readByte s d := rfl
@[simp] theorem getV_setPc (s : State) (a : Nat) (r : RegIdx) : getV (setPc s a) r = getV s r := rfl
@[simp] theorem readByte_setPc (s : State) (a : Nat) (d : Nat) : readByte (setPc s a) d = readByte s d := rfl
@[simp] theorem getV_advance (s : State) (r : RegIdx) : getV (advance s) r = getV s r := rfl
@[simp] theorem readByte_advance (s : State) (d : Nat) : readByte (advance s) d = readByte s d := rfl
@[simp] theorem getV_jumpTo (s : State) (w : Word) (r : RegIdx) : getV (jumpTo s w) r = getV s r := rfl
@[simp] theorem readByte_jumpTo (s : State) (w : Word) (d : Nat) : readByte (jumpTo s w) d = readByte s d := rfl
@[simp] theorem getV_takeDraw (s : State) (r : RegIdx) : getV (takeDraw s) r = getV s r := rfl
@[simp] theorem readByte_takeDraw (s : State) (d : Nat) : readByte (takeDraw s) d = readByte s d := rfl
@[simp] theorem getV_raiseFault (s : State) (kind : FaultKind) (pc op : Word) (r : RegIdx) : getV (raiseFault kind pc op s) r = getV s r := rfl
@[simp] theorem readByte_raiseFault (s : State) (kind : FaultKind) (pc op : Word) (d : Nat) : readByte (raiseFault kind pc op s) d = readByte s d := rfl
@[simp] theorem getV_writeByte (s : State) (a : Nat) (b : Byte) (r : RegIdx) : getV (writeByte s a b) r = getV s r := rfl
@[simp] theorem getV_skipIf (s : State) (c : Bool) (r : RegIdx) : getV (skipIf c s) r = getV s r := by
  rw [skipIf_unchanged]
  rfl
@[simp] theorem readByte_skipIf (s : State) (c : Bool) (d : Nat) : readByte (skipIf c s) d = readByte s d := by
  rw [skipIf_unchanged]
  rfl
@[simp] theorem getV_pulseSysEvent (s : State) (r : RegIdx) : getV (pulseSysEvent s) r = getV s r := by
  rw [pulseSysEvent_unchanged]
  rfl
@[simp] theorem readByte_pulseSysEvent (s : State) (d : Nat) : readByte (pulseSysEvent s) d = readByte s d := by
  rw [pulseSysEvent_unchanged]
  rfl
@[simp] theorem getV_writeBytes (s : State) (a : Nat) (bs : List Byte) (r : RegIdx) : getV (writeBytes s a bs) r = getV s r := by
  rw [writeBytes_unchanged]
  rfl
@[simp] theorem readByte_setRegsFrom (s : State) (k : Nat) (bs : List Byte) (d : Nat) : readByte (setRegsFrom s k bs) d = readByte s d := by
  rw [setRegsFrom_unchanged]
  rfl
@[simp] theorem readByte_writeFlagResult (s : State) (x : RegIdx) (r : FlagResult) (d : Nat) : readByte (writeFlagResult s x r) d = readByte s d := by
  rw [writeFlagResult_unchanged]
  rfl
@[simp] theorem getV_nextPorts (s : State) (r : RegIdx) : getV (nextPorts s) r = getV s r := by
  rw [nextPorts_unchanged]
  rfl
@[simp] theorem readByte_nextPorts (s : State) (d : Nat) : readByte (nextPorts s) d = readByte s d := by
  rw [nextPorts_unchanged]
  rfl

end Sys2Proof.Machine
end

