-- ==== Sys2Proof/Laws/Memory.lean ====
section
/-! SUPPORT. The laws of M: a read after a write, and the canonical form that every memory operation keeps (20_memory.md
R58, R60). -/

namespace Sys2Proof.Machine

/-! ### The list -/

theorem Memory.wf_cons {font : Font} {c : Host.Cell} {m : Memory} :
    Memory.wf font (c :: m) = true ↔
      c.1 < 4096 ∧ c.2 ≠ resetByte font c.1 ∧ (∀ e ∈ m, c.1 < e.1) ∧ Memory.wf font m = true := by
  simp [Memory.wf, and_assoc]

theorem Memory.lookup_none_of_lt {m : Memory} {a : Nat} (h : ∀ e ∈ m, a < e.1) : Memory.lookup m a = none := by
  induction m with
  | nil => rfl
  | cons c m ih =>
    have hc : c.1 ≠ a := (h c (by simp)).ne'
    simpa [Memory.lookup, hc] using ih fun e he => h e (by simp [he])

/-- Every address listed after an insertion was listed before, or is the one inserted. -/
theorem Memory.mem_insert {d : Byte} {m : Memory} {a : Nat} {b : Byte} {e : Host.Cell}
    (he : e ∈ Memory.insert d m a b) : e ∈ m ∨ e = (a, b) := by
  induction m with
  | nil =>
    unfold Memory.insert at he
    split at he <;> simp_all
  | cons c m ih =>
    unfold Memory.insert at he
    split_ifs at he <;> simp only [List.mem_cons] at he ⊢ <;> tauto

/-- A byte inserted is the byte found; the value an unlisted address reads as leaves no entry. -/
theorem Memory.lookup_insert_self {font : Font} {m : Memory} (a : Nat) (b : Byte) (h : Memory.wf font m = true) :
    (Memory.lookup (Memory.insert (resetByte font a) m a b) a).getD (resetByte font a) = b := by
  induction m with
  | nil => by_cases hb : b = resetByte font a <;> simp [Memory.insert, Memory.lookup, hb]
  | cons c m ih =>
    obtain ⟨-, -, hlt, hm⟩ := Memory.wf_cons.1 h
    unfold Memory.insert
    split_ifs with h1 h2 h3 h4
    · have : Memory.lookup (c :: m) a = none :=
        Memory.lookup_none_of_lt fun e he => by
          rcases List.mem_cons.1 he with rfl | he
          · exact h1
          · exact h1.trans (hlt e he)
      simp [this, h2]
    · simp [Memory.lookup]
    · subst h3
      simp [Memory.lookup_none_of_lt hlt, h4]
    · simp [Memory.lookup]
    · have : c.1 ≠ a := fun e => h3 e.symm
      simpa [Memory.lookup, this] using ih hm

/-- Another address is found as before. -/
theorem Memory.lookup_insert_ne {d : Byte} {m : Memory} {a c : Nat} (b : Byte) (hne : c ≠ a) :
    Memory.lookup (Memory.insert d m a b) c = Memory.lookup m c := by
  induction m with
  | nil =>
    unfold Memory.insert
    split <;> simp [Memory.lookup, hne.symm]
  | cons e m ih =>
    unfold Memory.insert
    split_ifs with h1 h2 h3 h4
    · rfl
    · simp [Memory.lookup, hne.symm]
    · subst h3; simp [Memory.lookup, hne.symm]
    · subst h3; simp [Memory.lookup, hne.symm]
    · simp [Memory.lookup, ih]

/-- An insertion at an address of M keeps the canonical form. -/
theorem Memory.wf_insert {font : Font} {m : Memory} {a : Nat} (b : Byte) (ha : a < 4096) (h : Memory.wf font m = true) :
    Memory.wf font (Memory.insert (resetByte font a) m a b) = true := by
  induction m with
  | nil => by_cases hb : b = resetByte font a <;> simp_all [Memory.insert, Memory.wf]
  | cons c m ih =>
    obtain ⟨hc, hd, hlt, hm⟩ := Memory.wf_cons.1 h
    unfold Memory.insert
    split_ifs with h1 h2 h3 h4
    · exact h
    · refine Memory.wf_cons.2 ⟨ha, h2, fun e he => ?_, h⟩
      rcases List.mem_cons.1 he with rfl | he
      · exact h1
      · exact h1.trans (hlt e he)
    · exact hm
    · subst h3
      exact Memory.wf_cons.2 ⟨ha, h4, hlt, hm⟩
    · refine Memory.wf_cons.2 ⟨hc, hd, fun e he => ?_, ih hm⟩
      rcases Memory.mem_insert he with he | rfl
      · exact hlt e he
      · exact lt_of_le_of_ne (not_lt.1 h1) fun e => h3 e.symm

/-! ### Reads and writes of the machine -/

/-- A read is of the address modulo 4096 (R51). -/
theorem readByte_mod (s : State) (a : Nat) : readByte s (a % 4096) = readByte s a := by
  simp [readByte]

/-- Reads depend on memory and the font alone. -/
theorem readByte_congr {s t : State} (hm : t.mem = s.mem) (hc : t.cfg = s.cfg) (a : Nat) : readByte t a = readByte s a := by
  simp [readByte, hm, hc]

/-- A read where nothing is listed is the reset byte. -/
theorem readByte_of_mem_nil {s : State} (h : s.mem = []) (a : Nat) : readByte s a = resetByte s.cfg.font (a % 4096) := by
  simp [readByte, h, Memory.lookup]

/-- Read after write, same address (R60). -/
theorem readByte_writeByte_self {s : State} (h : Memory.wf s.cfg.font s.mem = true) {a c : Nat} (b : Byte)
    (hac : c % 4096 = a % 4096) : readByte (writeByte s a b) c = b := by
  simpa [readByte, hac] using Memory.lookup_insert_self (a % 4096) b h

/-- Read after write, another address (R58). -/
theorem readByte_writeByte_ne {s : State} {a c : Nat} (b : Byte) (hac : c % 4096 ≠ a % 4096) :
    readByte (writeByte s a b) c = readByte s c := by
  simp [readByte, Memory.lookup_insert_ne b hac]

/-- One write keeps the canonical form. -/
theorem writeByte_wf {s : State} (a : Nat) (b : Byte) (h : Memory.wf s.cfg.font s.mem = true) :
    Memory.wf s.cfg.font (writeByte s a b).mem = true :=
  Memory.wf_insert b (Nat.mod_lt _ (by decide)) h

/-- A run of writes keeps the canonical form. -/
theorem writeBytes_wf {s : State} (a : Nat) (bs : List Byte) (h : Memory.wf s.cfg.font s.mem = true) :
    Memory.wf s.cfg.font (writeBytes s a bs).mem = true := by
  induction bs generalizing s a with
  | nil => exact h
  | cons b bs ih => exact ih (s := writeByte s a b) (a + 1) (writeByte_wf a b h)

/-- Outside the addresses a run of writes covers, nothing changes. -/
theorem readByte_writeBytes_outside {s : State} {a c : Nat} {bs : List Byte}
    (h : ∀ k < bs.length, c % 4096 ≠ (a + k) % 4096) : readByte (writeBytes s a bs) c = readByte s c := by
  induction bs generalizing s a with
  | nil => rfl
  | cons b bs ih =>
    have h0 := h 0 (by simp)
    have hs : ∀ k < bs.length, c % 4096 ≠ (a + 1 + k) % 4096 := fun k hk => by
      have := h (k + 1) (by simpa using hk)
      rwa [Nat.add_assoc, Nat.add_comm 1 k]
    exact (ih hs).trans (readByte_writeByte_ne b (by simpa using h0))

/-- Within them, each address holds its byte, as long as the run is no longer than M. -/
theorem readByte_writeBytes_inside {s : State} {a k : Nat} {bs : List Byte} (hwf : Memory.wf s.cfg.font s.mem = true)
    (hlen : bs.length ≤ 4096) (hk : k < bs.length) : readByte (writeBytes s a bs) (a + k) = bs[k] := by
  induction bs generalizing s a k with
  | nil => simp at hk
  | cons b bs ih =>
    cases k with
    | zero =>
      have outside : ∀ j < bs.length, (a + 0) % 4096 ≠ (a + 1 + j) % 4096 := fun j hj => by
        simp only [List.length_cons] at hlen
        omega
      exact (readByte_writeBytes_outside (s := writeByte s a b) outside).trans (readByte_writeByte_self hwf b rfl)
    | succ k =>
      have := ih (s := writeByte s a b) (a := a + 1) (k := k) (writeByte_wf a b hwf) (Nat.le_of_succ_le hlen)
        (by simpa using hk)
      rw [Nat.add_assoc, Nat.add_comm 1 k] at this
      simpa [writeBytes] using this

/-- What a read of several bytes gives, one by one. -/
@[simp] theorem readBytes_length (s : State) (a n : Nat) : (readBytes s a n).length = n := by
  simp [readBytes]

theorem readBytes_getElem (s : State) (a n k : Nat) (h : k < (readBytes s a n).length) :
    (readBytes s a n)[k] = readByte s (a + k) := by
  simp [readBytes]

/-- Reset memory is canonical, whatever the font. -/
theorem resetWith_wf (cfg : Config) : Memory.wf (State.resetWith cfg).cfg.font (State.resetWith cfg).mem = true := rfl

end Sys2Proof.Machine
end

