-- ==== Sys2Proof/Laws/Ops.lean ====
section
/-! SUPPORT. One lemma per shared operation that says what it can do: registers, program counter, stack, flags, the two
writes of R130, the stops, and how an outcome goes on. -/

namespace Sys2Proof.Machine

/-! ### Outcomes -/

@[simp] theorem andThen_next (s : State) (k : State → Result) : Result.andThen (.next s) k = k s := rfl

@[simp] theorem andThen_fault (r : Fault) (k : State → Result) : Result.andThen (.fault r) k = .fault r := rfl

@[simp] theorem andThen_refused (r : Refusal) (k : State → Result) : Result.andThen (.refused r) k = .refused r := rfl

/-- An outcome that went on to a next state had one to go on from. -/
theorem andThen_eq_next {o : Result} {k : State → Result} {t : State} (h : Result.andThen o k = .next t) :
    ∃ s, o = .next s ∧ k s = .next t := by
  cases o with
  | next s => exact ⟨s, rfl, h⟩
  | fault r => cases h
  | refused r => cases h

/-! ### Registers -/

/-- V after one write: the register written and the others (R20). -/
theorem getV_setV (s : State) (x r : RegIdx) (b : Byte) : getV (setV s x b) r = if r = x then b else getV s r := by
  by_cases h : r = x
  · simp [getV, h]
  · have : x.toNat ≠ r.toNat := fun e => h (BitVec.eq_of_toNat_eq e.symm)
    simp [getV, h, this]

@[simp] theorem getV_setV_self (s : State) (x : RegIdx) (b : Byte) : getV (setV s x b) x = b := by
  simp [getV_setV]

theorem getV_setV_ne (s : State) {x r : RegIdx} (b : Byte) (h : r ≠ x) : getV (setV s x b) r = getV s r := by
  simp [getV_setV, h]

/-- A register's value depends on the register file alone. -/
theorem getV_congr {s t : State} (h : t.v = s.v) (r : RegIdx) : getV t r = getV s r := by
  simp [getV, h]

/-- The registers after a run of writes from V[k]. -/
theorem getV_setRegsFrom (s : State) (k : Nat) (bs : List Byte) (r : RegIdx) :
    getV (setRegsFrom s k bs) r = if h : k ≤ r.toNat ∧ r.toNat - k < bs.length then bs[r.toNat - k] else getV s r := by
  induction bs generalizing s k with
  | nil => simp [setRegsFrom]
  | cons b bs ih =>
    rw [setRegsFrom, ih]
    have hr : r.toNat < 16 := r.isLt
    by_cases h1 : k + 1 ≤ r.toNat
    · have e : r.toNat - k = r.toNat - (k + 1) + 1 := by omega
      have hk : k < 16 := by omega
      have hne : r ≠ BitVec.ofNat 4 k := fun e => by
        have := congrArg BitVec.toNat e
        simp at this
        omega
      have hk' : k ≤ r.toNat := by omega
      simp [h1, hk', hk, e, getV_setV_ne _ _ hne]
    · by_cases h2 : k = r.toNat
      · subst h2
        simp [hr]
      · have : ¬ k ≤ r.toNat := by omega
        have hn : ¬ (k + 1 ≤ r.toNat) := h1
        by_cases hk : k < 16
        · have hne : r ≠ BitVec.ofNat 4 k := fun e => by
            have := congrArg BitVec.toNat e
            simp at this
            omega
          simp [hn, this, hk, getV_setV_ne _ _ hne]
        · simp [hn, this, hk]

/-- The effective address is I, not yet reduced (R51). -/
@[simp] theorem indexAddr_eq (s : State) : indexAddr s = s.index.toNat := rfl

/-- The registers FX55 stores, one by one. -/
theorem regsUpTo_getElem (s : State) (x : RegIdx) (k : Nat) (h : k < (regsUpTo s x).length) :
    (regsUpTo s x)[k] = getV s (BitVec.ofNat 4 k) := by
  simp [regsUpTo]

@[simp] theorem regsUpTo_length (s : State) (x : RegIdx) : (regsUpTo s x).length = x.toNat + 1 := by
  simp [regsUpTo]

/-- The two writes of R130: VF holds the flag unless Vx is VF and the result was written last. -/
theorem getV_writeFlagResult (s : State) (x r : RegIdx) (f : FlagResult) :
    getV (writeFlagResult s x f) r =
      if r = 0xF ∧ (x ≠ 0xF ∨ s.cfg.vfDestOrder = .resultThenFlag) then boolByte f.flag
      else if r = x then f.result else getV s r := by
  unfold writeFlagResult
  cases ho : s.cfg.vfDestOrder <;> simp only [getV_setV] <;> by_cases h1 : r = 0xF <;> by_cases h2 : x = 0xF <;>
    by_cases h3 : r = x <;> simp_all

/-! ### The program counter -/

/-- PC after a reduced write (R24). -/
theorem setPc_pc_toNat (s : State) (a : Nat) : (setPc s a).pc.toNat = a % 4096 := by
  simp only [setPc_pc, BitVec.toNat_ofNat]
  omega

theorem advance_pc_toNat (s : State) : (advance s).pc.toNat = (s.pc.toNat + 2) % 4096 :=
  setPc_pc_toNat s _

/-- PC after a skip instruction: over one word, or over two (R97). -/
theorem skipIf_advance_pc_toNat (c : Bool) (s : State) :
    (skipIf c (advance s)).pc.toNat = if c then (s.pc.toNat + 4) % 4096 else (s.pc.toNat + 2) % 4096 := by
  cases c
  · simpa [skipIf] using advance_pc_toNat s
  · simp only [skipIf, if_true, setPc_pc_toNat, advance_pc_toNat]
    omega

theorem zext16_toNat (nnn : Addr) : (zext16 nnn).toNat = nnn.toNat := by
  simp [zext16]
  omega

/-! ### The stack -/

/-- Push puts an entry exactly when SP is below 16 (R29). -/
theorem push_eq_some {s t : State} {w : Word} :
    push s w = some t ↔
      ∃ h : s.sp.toNat < 16, t = { s with stack := s.stack.set s.sp.toNat w h, sp := s.sp + 1 } := by
  unfold push
  split <;> simp_all [eq_comm]

theorem push_eq_none {s : State} {w : Word} : push s w = none ↔ 16 ≤ s.sp.toNat := by
  unfold push
  split <;> simp_all

/-- Pop takes an entry exactly when SP is 1 to 16 (R30). -/
theorem pop_eq_some {s t : State} {w : Word} :
    pop s = some (w, t) ↔
      ∃ h : 1 ≤ s.sp.toNat ∧ s.sp.toNat ≤ 16, w = s.stack[s.sp.toNat - 1] ∧ t = { s with sp := s.sp - 1 } := by
  unfold pop
  split <;> simp_all [eq_comm]

theorem pop_eq_none {s : State} : pop s = none ↔ s.sp.toNat = 0 ∨ 16 < s.sp.toNat := by
  unfold pop
  split <;> simp_all <;> omega

/-- CALL and RET without an entry: the CORE's fault at the limit, else the model's stop (R29, R30, R99). -/
theorem stackStop_cases (c : Bool) (kind : FaultKind) (op : Word) (s : State) :
    (c = true ∧ stackStop c kind op s = .next (raiseFault kind s.pc op s)) ∨
      (c = false ∧ stackStop c kind op s = .fault .stackDepthOutOfRange) := by
  cases c <;> simp [stackStop]

/-! ### Flags and results -/

theorem addFlag_result_toNat (x y : Byte) : (addFlag x y).result.toNat = (x.toNat + y.toNat) % 256 := by
  simp [addFlag]

theorem addFlag_result (x y : Byte) : (addFlag x y).result = x + y :=
  BitVec.eq_of_toNat_eq (by simp [addFlag])

theorem subFlag_result (x y : Byte) : (subFlag x y).result = x - y := by
  apply BitVec.eq_of_toNat_eq
  have hx := x.isLt
  have hy := y.isLt
  simp only [subFlag, BitVec.toNat_ofInt, BitVec.toNat_sub]
  omega

theorem shrFlag_result_toNat (b : Byte) : (shrFlag b).result.toNat = b.toNat / 2 := by
  simp [shrFlag, Nat.shiftRight_eq_div_pow]

theorem shlFlag_result_toNat (b : Byte) : (shlFlag b).result.toNat = b.toNat * 2 % 256 := by
  simp [shlFlag, Nat.shiftLeft_eq]

theorem boolByte_toNat (b : Bool) : (boolByte b).toNat = if b then 1 else 0 := by
  cases b <;> rfl

/-! ### Keys and the poll -/

/-- The newly pressed keys: up at Kbase, down now (R162). -/
theorem mem_newKeys {s : State} {k : Nibble} :
    k ∈ newKeys s ↔ s.keys.getLsbD k.toNat = true ∧ s.kbase.getLsbD k.toNat = false := by
  have hk : k ∈ (List.range 16).map (BitVec.ofNat 4) :=
    List.mem_map.2 ⟨k.toNat, List.mem_range.2 k.isLt, by simp⟩
  simp [newKeys, List.mem_filter, hk]

/-- The key chosen is one of those offered, and there is one unless none is offered (R163). -/
theorem chooseKey_cases (d : Nat) (ks : List Nibble) :
    (ks = [] ∧ chooseKey d ks = none) ∨ ∃ k ∈ ks, chooseKey d ks = some k := by
  match ks with
  | [] => exact .inl ⟨rfl, rfl⟩
  | [k] => exact .inr ⟨k, by simp, rfl⟩
  | k :: k' :: ks =>
    have h : d % (k :: k' :: ks).length < (k :: k' :: ks).length := Nat.mod_lt _ (by simp)
    exact .inr ⟨(k :: k' :: ks)[d % (k :: k' :: ks).length], List.getElem_mem h, List.getElem?_eq_getElem h⟩

/-- What a poll can do (R162): complete the FX0A with a newly pressed key, or keep waiting when there is none. -/
theorem waitPoll_cases (s : State) :
    (∃ k ∈ newKeys s, waitPoll s = (true, takeDraw { advance (setV s s.waitX (k.setWidth 8)) with status := .run })) ∨
      (newKeys s = [] ∧ waitPoll s = (false, { s with kbase := s.keys })) := by
  rcases chooseKey_cases (Config.keyDraw s.draws) (newKeys s) with ⟨h, hc⟩ | ⟨k, hk, hc⟩
  · exact .inr ⟨h, by simp [waitPoll, hc]⟩
  · exact .inl ⟨k, hk, by simp [waitPoll, hc]⟩

theorem countDown_toNat (b : Byte) : (countDown b).toNat = b.toNat - 1 := by
  unfold countDown
  split
  · next h => simp [h]
  · next h =>
    have : b.toNat ≠ 0 := fun e => h (BitVec.eq_of_toNat_eq (by simpa using e))
    have := b.isLt
    have e : (b - 1).toNat = (255 + b.toNat) % 256 := BitVec.toNat_sub b 1
    omega

end Sys2Proof.Machine
end

