-- ==== Sys2Proof/Laws/Cycle.lean ====
section
/-! SUPPORT. What the two instructions that can fault, one cycle, an attempt's end and one step can do: an inversion
lemma each, from which invariants are derived without unfolding the step. -/

namespace Sys2Proof.Machine

/-- CALL that answers: the push and the jump, or StackOverflow at SP = 16 (R113, R29, R99). -/
theorem execCall_cases {nnn : Addr} {s t : State} (h : execCall nnn s = .next t) :
    (∃ room : s.sp.toNat < 16, t = jumpTo
        { advance s with stack := s.stack.set s.sp.toNat (advance s).pc room, sp := s.sp + 1 } (zext16 nnn)) ∨
      (s.sp = 16 ∧ t = raiseFault .stackOverflow s.pc (encode (.call nnn)) s) := by
  unfold execCall at h
  split at h
  · next u hu =>
    obtain ⟨room, rfl⟩ := push_eq_some.1 hu
    cases h
    exact .inl ⟨room, rfl⟩
  · rcases stackStop_cases (s.sp == 16) .stackOverflow (encode (.call nnn)) s with ⟨limit, e⟩ | ⟨-, e⟩ <;> rw [e] at h <;>
      cases h
    exact .inr ⟨by simpa using limit, rfl⟩

/-- RET that answers: the pop and the jump, or StackUnderflow at SP = 0 (R114, R30, R99). -/
theorem execRet_cases {s t : State} (h : execRet s = .next t) :
    (∃ entry : 1 ≤ s.sp.toNat ∧ s.sp.toNat ≤ 16,
        t = jumpTo { advance s with sp := s.sp - 1 } (s.stack[s.sp.toNat - 1]'(by omega))) ∨
      (s.sp = 0 ∧ t = raiseFault .stackUnderflow s.pc (encode .ret) s) := by
  unfold execRet at h
  split at h
  · next u hu =>
    obtain ⟨entry, rfl, rfl⟩ := pop_eq_some.1 hu
    cases h
    exact .inl ⟨entry, rfl⟩
  · rcases stackStop_cases (s.sp == 0) .stackUnderflow (encode .ret) s with ⟨limit, e⟩ | ⟨-, e⟩ <;> rw [e] at h <;> cases h
    exact .inr ⟨by simpa using limit, rfl⟩

/-- A cycle by the word it fetches (R92). -/
theorem cycle_eq (s : State) :
    cycle s = match decodeWord (fetchWord s) with
      | .ok i => exec i s
      | .error _ => .next (raiseFault .illegalInstruction s.pc (fetchWord s) s) := by
  unfold cycle decode fetchWord
  cases h : decodeWord (wordOfBytes (readByte s s.pc.toNat) (readByte s (s.pc.toNat + 1))) <;> simp only [h]

/-- A cycle that answers: the decoded instruction's next state, or IllegalInstruction (R92, R203). -/
theorem cycle_cases {s t : State} (h : cycle s = .next t) :
    (∃ i, decodeWord (fetchWord s) = .ok i ∧ exec i s = .next t) ∨
      t = raiseFault .illegalInstruction s.pc (fetchWord s) s := by
  rw [cycle_eq] at h
  split at h
  · next i hi => exact .inl ⟨i, hi, h⟩
  · cases h
    exact .inr rfl

/-- The end of an attempt: cut short by a fault, one slot used, or the tick's end (R99, R101). -/
theorem afterAttempt_cases (goOn : Bool) (s : State) :
    (s.status = .fault ∧ afterAttempt goOn s = { s with slotsLeft := 0 }) ∨
      (s.status ≠ .fault ∧ 1 < s.slotsLeft ∧ goOn = true ∧ afterAttempt goOn s = { s with slotsLeft := s.slotsLeft - 1 }) ∨
      (s.status ≠ .fault ∧ afterAttempt goOn s = endTick s) := by
  unfold afterAttempt
  split_ifs with h1 h2
  · exact .inl ⟨h1, rfl⟩
  · simp only [Bool.and_eq_true, decide_eq_true_eq] at h2
    exact .inr (.inl ⟨h1, h2.2, h2.1, rfl⟩)
  · exact .inr (.inr ⟨h1, rfl⟩)

/-- Within a tick a step is an attempt. -/
theorem step_of_mid {s : State} (h : s.slotsLeft ≠ 0) : step s = attempt s := by
  unfold step stepTick attempt
  cases hs : s.status <;> simp [h]

/-- At a boundary, in RUN or WAIT_KEY, a step begins a tick. -/
theorem step_of_boundary {s : State} (h : s.slotsLeft = 0) (hr : s.status = .run ∨ s.status = .waitKey) :
    step s = startTick s := by
  unfold step stepTick
  rcases hr with hr | hr <;> simp [h, hr]

/-- FAULT and STOPPED are left alone (R103). -/
theorem step_of_frozen {s : State} (h : s.status = .fault ∨ s.status = .stopped) : step s = .next s := by
  rcases h with h | h <;> simp [step, stepTick, h]

/-- An attempt that answers, in RUN or WAIT_KEY: a cycle or a poll, and then the attempt's end (R90, R101). -/
theorem attempt_cases {s t : State} (h : attempt s = .next t) (hr : s.status = .run ∨ s.status = .waitKey) :
    (s.status = .run ∧ ∃ w, cycle s = .next w ∧ t = afterAttempt true w) ∨
      (s.status = .waitKey ∧ t = afterAttempt (waitPoll s).1 (waitPoll s).2) := by
  unfold attempt at h
  rcases hr with hr | hr
  · rw [hr] at h
    obtain ⟨w, hw, e⟩ := andThen_eq_next h
    cases e
    exact .inl ⟨hr, w, hw, rfl⟩
  · rw [hr] at h
    cases h
    exact .inr ⟨hr, rfl⟩

/-- Where an attempt starts from: the state itself within a tick, or the tick just opened (R90). -/
def AttemptFrom (s u : State) : Prop :=
  (u = s ∧ s.slotsLeft ≠ 0) ∨
    (u = openTick (nextPorts s) ∧ s.slotsLeft = 0 ∧ (nextPorts s).ports.shutdown = false ∧
      (nextPorts s).ports.hostFault = false)

/-- Everything a step that answers can do (R90, R103): nothing, in a final status; a stop or HostUnavailable at a
boundary; else an attempt, a cycle in RUN or a poll in WAIT_KEY, with its end. -/
theorem step_cases {s t : State} (h : step s = .next t) :
    ((s.status = .fault ∨ s.status = .stopped) ∧ t = s) ∨
      ((s.status = .run ∨ s.status = .waitKey) ∧ s.slotsLeft = 0 ∧ (nextPorts s).ports.shutdown = true ∧
        t = { nextPorts s with status := .stopped }) ∨
      ((s.status = .run ∨ s.status = .waitKey) ∧ s.slotsLeft = 0 ∧ (nextPorts s).ports.shutdown = false ∧
        (nextPorts s).ports.hostFault = true ∧ t = hostFault (nextPorts s)) ∨
      (∃ u, AttemptFrom s u ∧ u.status = s.status ∧
        ((u.status = .run ∧ ∃ w, cycle u = .next w ∧ t = afterAttempt true w) ∨
          (u.status = .waitKey ∧ t = afterAttempt (waitPoll u).1 (waitPoll u).2))) := by
  by_cases frozen : s.status = .fault ∨ s.status = .stopped
  · rw [step_of_frozen frozen] at h
    cases h
    exact .inl ⟨frozen, rfl⟩
  have hr : s.status = .run ∨ s.status = .waitKey := by
    cases hs : s.status <;> simp_all
  by_cases h0 : s.slotsLeft = 0
  · rw [step_of_boundary h0 hr, startTick] at h
    have hs : (openTick (nextPorts s)).status = s.status := by simp [openTick]
    split_ifs at h with h1 h2
    · cases h
      exact .inr (.inl ⟨hr, h0, h1, rfl⟩)
    · cases h
      exact .inr (.inr (.inl ⟨hr, h0, by simpa using h1, h2, rfl⟩))
    · exact .inr (.inr (.inr ⟨_, .inr ⟨rfl, h0, by simpa using h1, by simpa using h2⟩, hs, attempt_cases h (by rwa [hs])⟩))
  · rw [step_of_mid h0] at h
    exact .inr (.inr (.inr ⟨s, .inl ⟨rfl, h0⟩, rfl, attempt_cases h hr⟩))

end Sys2Proof.Machine
end

