-- ==== Sys2Proof/Laws/Display.lean ====
section
/-! SUPPORT. The laws of the grid and of one pixel of the blitter (46_display.md R182 to R184). -/

namespace Sys2Proof.Machine

/-- Coordinates count modulo the grid's size. -/
theorem cell_mod (g : Grid) (y x : Nat) : cell g (y % 32) (x % 64) = cell g y x := by
  simp [cell]

/-- A cell after one cell was set. -/
theorem cell_setCell (g : Grid) (y x y' x' : Nat) (b : Bool) :
    cell (setCell g y x b) y' x' = if y' % 32 = y % 32 ∧ x' % 64 = x % 64 then b else cell g y' x' := by
  unfold cell setCell
  by_cases hy : y' % 32 = y % 32
  · by_cases hx : x' % 64 = x % 64
    · simp [hy, hx]
    · simp [hy, hx, Ne.symm hx]
  · simp [hy, Ne.symm hy]

/-- Two grids with the same cells are the same grid. -/
theorem Grid.ext_cell {g h : Grid} (e : ∀ y < 32, ∀ x < 64, cell g y x = cell h y x) : g = h := by
  apply Vector.ext
  intro y hy
  apply Vector.ext
  intro x hx
  simpa [cell, Nat.mod_eq_of_lt hy, Nat.mod_eq_of_lt hx] using e y hy x hx

@[simp] theorem cell_blank (y x : Nat) : cell Grid.blank y x = false := by
  simp [cell, Grid.blank]

/-- One pixel: its cell is XORed unless the pixel is clipped; every other cell stays. -/
theorem cell_blitPixel (q : ClipQuirk) (ox oy i j : Nat) (p : Bool) (gc : Grid × Bool) (y x : Nat) :
    cell (blitPixel q ox oy i j p gc).1 y x =
      if ¬ (q = .clip ∧ (64 ≤ ox + j ∨ 32 ≤ oy + i)) ∧ y % 32 = (oy + i) % 32 ∧ x % 64 = (ox + j) % 64
      then cell gc.1 y x ^^ p else cell gc.1 y x := by
  unfold blitPixel
  split
  · next h => simp [h]
  · next h =>
    simp only [cell_setCell, h, not_false_eq_true, true_and]
    split
    · next e => rw [← cell_mod gc.1 y x, e.1, e.2, cell_mod]
    · rfl

/-- One pixel: the collision flag is raised by a lit pixel on a lit cell, and never cleared (R183). -/
theorem flag_blitPixel (q : ClipQuirk) (ox oy i j : Nat) (p : Bool) (gc : Grid × Bool) :
    (blitPixel q ox oy i j p gc).2 =
      (gc.2 || (!decide (q = .clip ∧ (64 ≤ ox + j ∨ 32 ≤ oy + i)) && p && cell gc.1 (oy + i) (ox + j))) := by
  unfold blitPixel
  split
  · next h => simp [h]
  · next h => simp [h]

end Sys2Proof.Machine
end

