-- ==== Sys2Proof/Laws/Exec.lean ====
section
/-! SUPPORT. What no instruction touches, that no instruction reads the tick's slot count, and one more step of a run. -/

namespace Sys2Proof.Machine

/-- No instruction writes the parameters, the ports, the sampled keys, the outputs or the slot count (R91, R39, R90), and
canonical memory stays canonical. -/
theorem exec_untouched {i : Instr} {s t : State} (h : exec i s = .next t) :
    t.cfg = s.cfg ∧ t.ports = s.ports ∧ t.portQueue = s.portQueue ∧ t.keys = s.keys ∧ t.frame = s.frame ∧
      t.soundOn = s.soundOn ∧ t.slotsLeft = s.slotsLeft ∧
      (Memory.wf s.cfg.font s.mem = true → Memory.wf s.cfg.font t.mem = true) := by
  cases i
  case call nnn =>
    rcases execCall_cases h with ⟨_, rfl⟩ | ⟨_, rfl⟩ <;> exact ⟨rfl, rfl, rfl, rfl, rfl, rfl, rfl, id⟩
  case ret =>
    rcases execRet_cases h with ⟨_, rfl⟩ | ⟨_, rfl⟩ <;> exact ⟨rfl, rfl, rfl, rfl, rfl, rfl, rfl, id⟩
  all_goals
    cases h
    refine ⟨by simp, by simp, by simp, by simp, by simp, by simp, by simp, fun hw => ?_⟩
    first
      | simpa using hw
      | simpa using writeBytes_wf (s := advance s) _ _ hw

/-- The same machine with another slot count. -/
def State.withSlots (n : Nat) (s : State) : State := { s with slotsLeft := n }

/-- An outcome whose next state, if any, is changed. -/
def Result.map (f : State → State) (o : Result) : Result := Result.andThen o fun t => .next (f t)

theorem writeBytes_withSlots (n : Nat) (s : State) (a : Nat) (bs : List Byte) :
    writeBytes (s.withSlots n) a bs = (writeBytes s a bs).withSlots n := by
  induction bs generalizing s a with
  | nil => rfl
  | cons b bs ih => exact ih (writeByte s a b) (a + 1)

theorem setRegsFrom_withSlots (n : Nat) (s : State) (k : Nat) (bs : List Byte) :
    setRegsFrom (s.withSlots n) k bs = (setRegsFrom s k bs).withSlots n := by
  induction bs generalizing s k with
  | nil => rfl
  | cons b bs ih =>
    rw [setRegsFrom, setRegsFrom, ← ih]
    split <;> rfl

theorem skipIf_withSlots (n : Nat) (c : Bool) (s : State) : skipIf c (s.withSlots n) = (skipIf c s).withSlots n := by
  cases c <;> rfl

theorem writeFlagResult_withSlots (n : Nat) (s : State) (x : RegIdx) (r : FlagResult) :
    writeFlagResult (s.withSlots n) x r = (writeFlagResult s x r).withSlots n := by
  unfold writeFlagResult
  rw [show (s.withSlots n).cfg = s.cfg from rfl]
  cases s.cfg.vfDestOrder <;> rfl

theorem pulseSysEvent_withSlots (n : Nat) (s : State) :
    pulseSysEvent (s.withSlots n) = (pulseSysEvent s).withSlots n := by
  unfold pulseSysEvent
  rw [show (s.withSlots n).cfg = s.cfg from rfl]
  split <;> rfl

theorem stackStop_withSlots (n : Nat) (c : Bool) (kind : FaultKind) (op : Word) (s : State) :
    stackStop c kind op (s.withSlots n) = (stackStop c kind op s).map (State.withSlots n) := by
  cases c <;> rfl

theorem execCall_withSlots (n : Nat) (nnn : Addr) (s : State) :
    execCall nnn (s.withSlots n) = (execCall nnn s).map (State.withSlots n) := by
  unfold execCall push
  by_cases h : s.sp.toNat < 16
  · rw [dif_pos (show (advance (s.withSlots n)).sp.toNat < 16 from h), dif_pos (show (advance s).sp.toNat < 16 from h)]
    rfl
  · rw [dif_neg (show ¬(advance (s.withSlots n)).sp.toNat < 16 from h), dif_neg (show ¬(advance s).sp.toNat < 16 from h)]
    exact stackStop_withSlots n _ _ _ s

theorem execRet_withSlots (n : Nat) (s : State) :
    execRet (s.withSlots n) = (execRet s).map (State.withSlots n) := by
  unfold execRet pop
  by_cases h : 1 ≤ s.sp.toNat ∧ s.sp.toNat ≤ 16
  · rw [dif_pos (show 1 ≤ (advance (s.withSlots n)).sp.toNat ∧ (advance (s.withSlots n)).sp.toNat ≤ 16 from h),
      dif_pos (show 1 ≤ (advance s).sp.toNat ∧ (advance s).sp.toNat ≤ 16 from h)]
    rfl
  · rw [dif_neg (show ¬(1 ≤ (advance (s.withSlots n)).sp.toNat ∧ (advance (s.withSlots n)).sp.toNat ≤ 16) from h),
      dif_neg (show ¬(1 ≤ (advance s).sp.toNat ∧ (advance s).sp.toNat ≤ 16) from h)]
    exact stackStop_withSlots n _ _ _ s

/-- No instruction reads the slot count. -/
theorem exec_withSlots (n : Nat) (i : Instr) (s : State) :
    exec i (s.withSlots n) = Result.map (State.withSlots n) (exec i s) := by
  have adv : advance (s.withSlots n) = (advance s).withSlots n := rfl
  cases i
  case call nnn => exact execCall_withSlots n nnn s
  case ret => exact execRet_withSlots n s
  case sys nnn => simp only [exec, execSys, adv, pulseSysEvent_withSlots]; rfl
  case seByte => simp only [exec, execSeByte, adv, skipIf_withSlots]; rfl
  case sneByte => simp only [exec, execSneByte, adv, skipIf_withSlots]; rfl
  case seReg => simp only [exec, execSeReg, adv, skipIf_withSlots]; rfl
  case sneReg => simp only [exec, execSneReg, adv, skipIf_withSlots]; rfl
  case skp => simp only [exec, execSkp, adv, skipIf_withSlots]; rfl
  case sknp => simp only [exec, execSknp, adv, skipIf_withSlots]; rfl
  case addReg => simp only [exec, execAddReg, adv, writeFlagResult_withSlots]; rfl
  case subReg => simp only [exec, execSubReg, adv, writeFlagResult_withSlots]; rfl
  case subnReg => simp only [exec, execSubnReg, adv, writeFlagResult_withSlots]; rfl
  case shr => simp only [exec, execShr, adv, writeFlagResult_withSlots]; rfl
  case shl => simp only [exec, execShl, adv, writeFlagResult_withSlots]; rfl
  case ldB => simp only [exec, execLdB, adv, writeBytes_withSlots]; rfl
  case storeRegs => simp only [exec, execStoreRegs, adv, writeBytes_withSlots]; rfl
  case loadRegs => simp only [exec, execLoadRegs, adv, setRegsFrom_withSlots]; rfl
  all_goals rfl

/-- Nor does a cycle. -/
theorem cycle_withSlots (n : Nat) (s : State) : cycle (s.withSlots n) = (cycle s).map (State.withSlots n) := by
  rw [cycle_eq, cycle_eq, show fetchWord (s.withSlots n) = fetchWord s from rfl]
  cases decodeWord (fetchWord s) with
  | ok i => exact exec_withSlots n i s
  | error e => rfl

/-- Nor a poll. -/
theorem waitPoll_withSlots (n : Nat) (s : State) :
    waitPoll (s.withSlots n) = ((waitPoll s).1, (waitPoll s).2.withSlots n) := by
  unfold waitPoll
  rw [show newKeys (s.withSlots n) = newKeys s from rfl, show (s.withSlots n).draws = s.draws from rfl]
  cases chooseKey (Config.keyDraw s.draws) (newKeys s) <;> rfl

/-- A run of one step more. -/
theorem core_run_succ (k : Nat) (s : State) :
    Host.Core.run Sys2Proof.core (k + 1) s = Result.andThen (step s) fun t => Host.Core.run Sys2Proof.core k t := by
  have unfolded : ∀ (M : Host.Core) (u : M.State), M.run (k + 1) u =
      match M.step u with
      | .next t => M.run k t
      | .fault r => .fault r
      | .refused r => .refused r := fun _ _ => rfl
  refine (unfolded Sys2Proof.core s).trans ?_
  rw [show Sys2Proof.core.step s = step s from rfl]
  cases step s <;> rfl

end Sys2Proof.Machine
end

