-- ==== Sys2Proof/Laws/PerInstr.lean ====
section
/-! SUPPORT. Per instruction: its word lies in its own row of spec/opcode_table.json, whose fixed bits are the row's `match`
under the row's `mask`. The row is written out from the table, not from the encoder. -/

namespace Sys2Proof.Laws.RowMatch

/-- An opcode table row's fixed bits: `mask` says which they are, `fixed` what they hold (the table's `match`). -/
structure Row where
  fixed : Word
  mask : Word
deriving DecidableEq, Repr

/-- The row of each instruction (R74). -/
def row : Instr → Row
  | .cls => ⟨0x00E0, 0xFFFF⟩
  | .ret => ⟨0x00EE, 0xFFFF⟩
  | .sys _ => ⟨0x0000, 0xF000⟩
  | .jp _ => ⟨0x1000, 0xF000⟩
  | .call _ => ⟨0x2000, 0xF000⟩
  | .seByte _ _ => ⟨0x3000, 0xF000⟩
  | .sneByte _ _ => ⟨0x4000, 0xF000⟩
  | .seReg _ _ => ⟨0x5000, 0xF00F⟩
  | .ldByte _ _ => ⟨0x6000, 0xF000⟩
  | .addByte _ _ => ⟨0x7000, 0xF000⟩
  | .ldReg _ _ => ⟨0x8000, 0xF00F⟩
  | .orReg _ _ => ⟨0x8001, 0xF00F⟩
  | .andReg _ _ => ⟨0x8002, 0xF00F⟩
  | .xorReg _ _ => ⟨0x8003, 0xF00F⟩
  | .addReg _ _ => ⟨0x8004, 0xF00F⟩
  | .subReg _ _ => ⟨0x8005, 0xF00F⟩
  | .shr _ _ => ⟨0x8006, 0xF00F⟩
  | .subnReg _ _ => ⟨0x8007, 0xF00F⟩
  | .shl _ _ => ⟨0x800E, 0xF00F⟩
  | .sneReg _ _ => ⟨0x9000, 0xF00F⟩
  | .ldI _ => ⟨0xA000, 0xF000⟩
  | .jpV0 _ => ⟨0xB000, 0xF000⟩
  | .rnd _ _ => ⟨0xC000, 0xF000⟩
  | .drw _ _ _ => ⟨0xD000, 0xF000⟩
  | .skp _ => ⟨0xE09E, 0xF0FF⟩
  | .sknp _ => ⟨0xE0A1, 0xF0FF⟩
  | .ldVxDt _ => ⟨0xF007, 0xF0FF⟩
  | .ldVxK _ => ⟨0xF00A, 0xF0FF⟩
  | .ldDtVx _ => ⟨0xF015, 0xF0FF⟩
  | .ldStVx _ => ⟨0xF018, 0xF0FF⟩
  | .addI _ => ⟨0xF01E, 0xF0FF⟩
  | .ldF _ => ⟨0xF029, 0xF0FF⟩
  | .ldB _ => ⟨0xF033, 0xF0FF⟩
  | .storeRegs _ => ⟨0xF055, 0xF0FF⟩
  | .loadRegs _ => ⟨0xF065, 0xF0FF⟩

/-- The word of the instruction holds its row's fixed bits. -/
def Statement (i : Instr) : Prop := encode i &&& (row i).mask = (row i).fixed

/-- All ones keep a field. -/
theorem and_ones (n : Nibble) : n &&& 15#4 = n := BitVec.and_allOnes

theorem and_ones_byte (b : Byte) : b &&& 255#8 = b := BitVec.and_allOnes

/-! ### The formats: what stays of a word under the mask of its format -/

theorem formNNN_row (n1 : Nibble) (nnn : Addr) : formNNN n1 nnn &&& 0xF000 = n1 ++ 0#12 := by
  rw [formNNN, show (0xF000 : Word) = 0xF#4 ++ 0#12 from rfl, BitVec.and_append]
  simp [and_ones]

theorem formXNN_row (n1 : Nibble) (x : RegIdx) (nn : Byte) : formXNN n1 x nn &&& 0xF000 = n1 ++ 0#4 ++ 0#8 := by
  rw [formXNN, show (0xF000 : Word) = 0xF#4 ++ 0#4 ++ 0#8 from rfl, BitVec.and_append, BitVec.and_append]
  simp [and_ones]

theorem formXNN_code_row (n1 : Nibble) (x : RegIdx) (nn : Byte) : formXNN n1 x nn &&& 0xF0FF = n1 ++ 0#4 ++ nn := by
  rw [formXNN, show (0xF0FF : Word) = 0xF#4 ++ 0#4 ++ 0xFF#8 from rfl, BitVec.and_append, BitVec.and_append]
  simp [and_ones, and_ones_byte]

theorem formXYN_row (n1 : Nibble) (x y : RegIdx) (n : Nibble) :
    formXYN n1 x y n &&& 0xF000 = n1 ++ 0#4 ++ 0#4 ++ 0#4 := by
  rw [formXYN, show (0xF000 : Word) = 0xF#4 ++ 0#4 ++ 0#4 ++ 0#4 from rfl, BitVec.and_append, BitVec.and_append,
    BitVec.and_append]
  simp [and_ones]

theorem formXYN_code_row (n1 : Nibble) (x y : RegIdx) (n : Nibble) :
    formXYN n1 x y n &&& 0xF00F = n1 ++ 0#4 ++ 0#4 ++ n := by
  rw [formXYN, show (0xF00F : Word) = 0xF#4 ++ 0#4 ++ 0#4 ++ 0xF#4 from rfl, BitVec.and_append, BitVec.and_append,
    BitVec.and_append]
  simp [and_ones]

/-! ### One lemma per instruction -/

theorem cls : Statement .cls := rfl

theorem ret : Statement .ret := rfl

theorem sys (nnn : Addr) : Statement (.sys nnn) := formNNN_row _ nnn

theorem jp (nnn : Addr) : Statement (.jp nnn) := formNNN_row _ nnn

theorem call (nnn : Addr) : Statement (.call nnn) := formNNN_row _ nnn

theorem seByte (x : RegIdx) (nn : Byte) : Statement (.seByte x nn) := formXNN_row _ x nn

theorem sneByte (x : RegIdx) (nn : Byte) : Statement (.sneByte x nn) := formXNN_row _ x nn

theorem seReg (x y : RegIdx) : Statement (.seReg x y) := formXYN_code_row _ x y _

theorem ldByte (x : RegIdx) (nn : Byte) : Statement (.ldByte x nn) := formXNN_row _ x nn

theorem addByte (x : RegIdx) (nn : Byte) : Statement (.addByte x nn) := formXNN_row _ x nn

theorem ldReg (x y : RegIdx) : Statement (.ldReg x y) := formXYN_code_row _ x y _

theorem orReg (x y : RegIdx) : Statement (.orReg x y) := formXYN_code_row _ x y _

theorem andReg (x y : RegIdx) : Statement (.andReg x y) := formXYN_code_row _ x y _

theorem xorReg (x y : RegIdx) : Statement (.xorReg x y) := formXYN_code_row _ x y _

theorem addReg (x y : RegIdx) : Statement (.addReg x y) := formXYN_code_row _ x y _

theorem subReg (x y : RegIdx) : Statement (.subReg x y) := formXYN_code_row _ x y _

theorem shr (x y : RegIdx) : Statement (.shr x y) := formXYN_code_row _ x y _

theorem subnReg (x y : RegIdx) : Statement (.subnReg x y) := formXYN_code_row _ x y _

theorem shl (x y : RegIdx) : Statement (.shl x y) := formXYN_code_row _ x y _

theorem sneReg (x y : RegIdx) : Statement (.sneReg x y) := formXYN_code_row _ x y _

theorem ldI (nnn : Addr) : Statement (.ldI nnn) := formNNN_row _ nnn

theorem jpV0 (nnn : Addr) : Statement (.jpV0 nnn) := formNNN_row _ nnn

theorem rnd (x : RegIdx) (nn : Byte) : Statement (.rnd x nn) := formXNN_row _ x nn

theorem drw (x y : RegIdx) (n : Nibble) : Statement (.drw x y n) := formXYN_row _ x y n

theorem skp (x : RegIdx) : Statement (.skp x) := formXNN_code_row _ x _

theorem sknp (x : RegIdx) : Statement (.sknp x) := formXNN_code_row _ x _

theorem ldVxDt (x : RegIdx) : Statement (.ldVxDt x) := formXNN_code_row _ x _

theorem ldVxK (x : RegIdx) : Statement (.ldVxK x) := formXNN_code_row _ x _

theorem ldDtVx (x : RegIdx) : Statement (.ldDtVx x) := formXNN_code_row _ x _

theorem ldStVx (x : RegIdx) : Statement (.ldStVx x) := formXNN_code_row _ x _

theorem addI (x : RegIdx) : Statement (.addI x) := formXNN_code_row _ x _

theorem ldF (x : RegIdx) : Statement (.ldF x) := formXNN_code_row _ x _

theorem ldB (x : RegIdx) : Statement (.ldB x) := formXNN_code_row _ x _

theorem storeRegs (x : RegIdx) : Statement (.storeRegs x) := formXNN_code_row _ x _

theorem loadRegs (x : RegIdx) : Statement (.loadRegs x) := formXNN_code_row _ x _

end Sys2Proof.Laws.RowMatch
end

