-- ==== Sys2Proof/Tests/Slice0.lean ====
section
/-! SUPPORT. The model's own tests: ill-formed terms, one word per constructor written out from 30_encoding.md R71 and R74,
one-step tests with the expected results of spec/95_test_vectors.md (the vector's id stands in each comment), and a witness
for the hypotheses of each statement. -/

namespace Sys2Proof.Tests

open Sys2Proof.Machine Sys2Proof.Safety

/-! ## Helpers -/

/-- What `f` reads off the next state, if there is one. -/
def after {α : Type} (o : Result) (f : State → α) : Option α :=
  match o with
  | .next t => some (f t)
  | .fault _ => none
  | .refused _ => none

/-- A state with some registers set. -/
def withRegs (s : State) (rs : List (RegIdx × Byte)) : State := rs.foldl (fun t r => setV t r.1 r.2) s

/-- Reset, some registers set, and one instruction next. -/
def start (w : Nat) (rs : List (RegIdx × Byte)) : State := (withRegs State.reset rs).withFetchWord 16 w

/-- Reset with some of the parameters changed. -/
def cosmac : State := State.resetWith { defaultConfig with quirkShift := .cosmac }

def increment : State := State.resetWith { defaultConfig with quirkLoadStore := .increment }

def clipping : State := State.resetWith { defaultConfig with quirkClip := .clip }

def resultFirst : State := State.resetWith { defaultConfig with vfDestOrder := .resultThenFlag }

def threeCycles : State := State.resetWith { defaultConfig with cyclesPerTick := ⟨3, by decide⟩ }

/-- A core that waits in an FX0A of register 3, at a boundary, with the key levels `base` in Kbase. -/
def waitingFrom (base : BitVec 16) : State :=
  { threeCycles.withFetchWord 16 0xF30A with status := .waitKey, waitX := 3, keys := base, kbase := base }

/-! ## Well-formedness: SYS does not stand for the words of CLS and RET (R75) -/

theorem test_wf_sys_cls : (Instr.sys 0x0E0).wf = false := by decide

theorem test_wf_sys_ret : (Instr.sys 0x0EE).wf = false := by decide

theorem test_wf_sys_other : (Instr.sys 0x0E1).wf = true := by decide

/-! ## Decoding: one word of each constructor, from the table's bits (R71, R74) -/

theorem test_decode_flow :
    decodeTableWord 16 0b0000_0000_1110_1110 = some .ret ∧
    decodeTableWord 16 0b0000_0001_0010_0011 = some (.sys 0x123) ∧
    decodeTableWord 16 0b0001_0010_1010_1000 = some (.jp 0x2A8) ∧
    decodeTableWord 16 0b0010_0011_0100_0101 = some (.call 0x345) ∧
    decodeTableWord 16 0b1011_0011_0000_0001 = some (.jpV0 0x301) := by decide

theorem test_decode_skip :
    decodeTableWord 16 0b0011_0011_0100_0010 = some (.seByte 0x3 0x42) ∧
    decodeTableWord 16 0b0100_0011_0100_0010 = some (.sneByte 0x3 0x42) ∧
    decodeTableWord 16 0b0101_0001_0010_0000 = some (.seReg 0x1 0x2) ∧
    decodeTableWord 16 0b1001_0001_0010_0000 = some (.sneReg 0x1 0x2) ∧
    decodeTableWord 16 0b1110_0100_1001_1110 = some (.skp 0x4) ∧
    decodeTableWord 16 0b1110_0100_1010_0001 = some (.sknp 0x4) := by decide

theorem test_decode_immediate :
    decodeTableWord 16 0b0110_1010_0001_0010 = some (.ldByte 0xA 0x12) ∧
    decodeTableWord 16 0b0111_1010_0001_0010 = some (.addByte 0xA 0x12) ∧
    decodeTableWord 16 0b1100_0001_0000_1111 = some (.rnd 0x1 0x0F) := by decide

theorem test_decode_alu :
    decodeTableWord 16 0b1000_0001_0010_0000 = some (.ldReg 0x1 0x2) ∧
    decodeTableWord 16 0b1000_0001_0010_0001 = some (.orReg 0x1 0x2) ∧
    decodeTableWord 16 0b1000_0001_0010_0010 = some (.andReg 0x1 0x2) ∧
    decodeTableWord 16 0b1000_0001_0010_0011 = some (.xorReg 0x1 0x2) ∧
    decodeTableWord 16 0b1000_0001_0010_0100 = some (.addReg 0x1 0x2) ∧
    decodeTableWord 16 0b1000_0001_0010_0101 = some (.subReg 0x1 0x2) ∧
    decodeTableWord 16 0b1000_0001_0010_0110 = some (.shr 0x1 0x2) ∧
    decodeTableWord 16 0b1000_0001_0010_0111 = some (.subnReg 0x1 0x2) ∧
    decodeTableWord 16 0b1000_0001_0010_1110 = some (.shl 0x1 0x2) := by decide

theorem test_decode_index_memory :
    decodeTableWord 16 0b1010_0011_0000_0001 = some (.ldI 0x301) ∧
    decodeTableWord 16 0b1111_0010_0001_1110 = some (.addI 0x2) ∧
    decodeTableWord 16 0b1111_0010_0010_1001 = some (.ldF 0x2) ∧
    decodeTableWord 16 0b1111_0010_0011_0011 = some (.ldB 0x2) ∧
    decodeTableWord 16 0b1111_0010_0101_0101 = some (.storeRegs 0x2) ∧
    decodeTableWord 16 0b1111_0010_0110_0101 = some (.loadRegs 0x2) := by decide

theorem test_decode_timers_keys :
    decodeTableWord 16 0b1111_0011_0000_0111 = some (.ldVxDt 0x3) ∧
    decodeTableWord 16 0b1111_0011_0000_1010 = some (.ldVxK 0x3) ∧
    decodeTableWord 16 0b1111_0011_0001_0101 = some (.ldDtVx 0x3) ∧
    decodeTableWord 16 0b1111_0011_0001_1000 = some (.ldStVx 0x3) := by decide

theorem test_decode_display :
    decodeTableWord 16 0b0000_0000_1110_0000 = some .cls ∧
    decodeTableWord 16 0b1101_0001_0010_0101 = some (.drw 0x1 0x2 0x5) := by decide

/-- L2-C6, and one word of each illegal set (R76). -/
theorem test_decode_illegal :
    [0x5121, 0x9AB1, 0x8128, 0x812F, 0xE19F, 0xF1FF, 0xF000].map (decodeTableWord 16) = List.replicate 7 none := by decide

/-- A byte alone is no word (R70). -/
theorem test_decode_truncated : decode [0x12] = .error .truncated := by decide

/-! ## Codes of the output ports (R36, R37, R202) -/

theorem test_status_codes : [Status.run, .waitKey, .fault, .stopped].map statusCode = [0, 1, 2, 3] := by decide

theorem test_fault_codes :
    [FaultKind.none, .stackOverflow, .stackUnderflow, .illegalInstruction, .hostUnavailable].map faultCode =
      [0, 1, 2, 3, 4] := by decide

/-! ## Cycle, tick and faults -/

/-- L2-C2: PC wraps at the top of memory. -/
theorem test_pc_wraps :
    after (step ({ State.reset with pc := 0xFFE }.withFetchWord 16 0x6A12)) (fun t => (getV t 0xA, t.pc)) =
      some (0x12, 0x000) := by decide

/-- L2-C3: a fetch across the top of memory. -/
theorem test_fetch_wraps :
    after (step ({ State.reset with pc := 0xFFF }.withFetchWord 16 0x6A12)) (fun t => (getV t 0xA, t.pc)) =
      some (0x12, 0x001) := by decide

/-- L2-C4: an odd PC. -/
theorem test_odd_pc :
    after (step ({ State.reset with pc := 0x201 }.withFetchWord 16 0x6007)) (fun t => (getV t 0, t.pc)) =
      some (7, 0x203) := by decide

/-- L2-C5: an illegal word. -/
theorem test_illegal :
    after (step (start 0x5121 [])) (fun t => (t.status, t.faultKind, t.faultPc, t.faultOpcode, t.pc)) =
      some (.fault, .illegalInstruction, 0x200, 0x5121, 0x200) := by decide

/-- L2-C10: the font's first two bytes, reached by running off the end, are no instruction. -/
theorem test_font_is_illegal :
    after (step { State.reset with pc := 0x000 }) (fun t => (t.faultKind, t.faultPc, t.faultOpcode)) =
      some (.illegalInstruction, 0x000, 0xF090) := by decide

/-- L2-C11: a tick in FAULT counts nothing down. -/
theorem test_fault_is_frozen : after (step { State.reset with status := .fault, dt := 5 }) (·.dt) = some 5 := by decide

/-- L2-C12: shutdown. -/
theorem test_shutdown :
    after (step { State.reset with dt := 5, ports := { Ports.idle with shutdown := true } })
      (fun t => (t.status, t.dt, t.pc)) = some (.stopped, 5, 0x200) := by decide

/-- L2-C13: host_fault. -/
theorem test_host_fault :
    after (step { State.reset with pc := 0x204, ports := { Ports.idle with hostFault := true } })
      (fun t => (t.status, t.faultKind, t.faultPc, t.faultOpcode)) = some (.fault, .hostUnavailable, 0x204, 0) := by decide

/-- L2-C14: both at once. -/
theorem test_shutdown_before_host_fault :
    after (step { State.reset with ports := { keys := 0, shutdown := true, hostFault := true } })
      (fun t => (t.status, t.faultKind)) = some (.stopped, .none) := by decide

/-- L2-C15, first and last of three cycles: the first leaves two slots and counts nothing down, the last ends the tick. -/
theorem test_three_cycles :
    after (step { threeCycles.withFetchWord 16 0x6001 with dt := 2 }) (fun t => (getV t 0, t.dt, t.slotsLeft)) =
      some (1, 2, 2) ∧
    after (step { (withRegs threeCycles [(0, 1), (1, 2)]).withFetchWord 16 0x5010 with dt := 2, slotsLeft := 1 })
      (fun t => (t.pc, t.dt, t.slotsLeft)) = some (0x202, 1, 0) := by decide

/-- L2-C16: a fault in the second cycle of three ends the tick without its countdown. -/
theorem test_fault_cuts_tick :
    after (step { threeCycles.withFetchWord 16 0x5121 with dt := 3, slotsLeft := 2 })
      (fun t => (t.status, t.dt, t.slotsLeft)) = some (.fault, 3, 0) := by decide

/-- L2-T5, tick 2 and tick 4: a key held since the wait began does not end it; released and pressed again it does. -/
theorem test_poll_wants_a_new_key :
    after (step { waitingFrom 0x0020 with ports := { Ports.idle with keys := 0x0020 } }) (·.status) = some .waitKey ∧
    after (step { waitingFrom 0 with ports := { Ports.idle with keys := 0x0020 } }) (getV · 3) = some 5 := by decide

/-- L2-T8: shutdown during the wait leaves V3. -/
theorem test_shutdown_ends_wait :
    after (step { waitingFrom 0 with ports := { keys := 0x0080, shutdown := true, hostFault := false } })
      (fun t => (t.status, getV t 3)) = some (.stopped, 0) := by decide

/-- L2-T9: a failed poll ends its tick early; a poll that completes uses one slot of three. -/
theorem test_poll_and_slots :
    after (step { waitingFrom 0 with slotsLeft := 2, dt := 9 }) (fun t => (t.status, t.slotsLeft, t.dt)) =
      some (.waitKey, 0, 8) ∧
    after (step { waitingFrom 0 with ports := { Ports.idle with keys := 0x0010 } })
      (fun t => (getV t 3, t.pc, t.status, t.slotsLeft)) = some (4, 0x202, .run, 2) := by decide

/-! ## Flow -/

/-- L1-O2. -/
theorem test_sys : after (step (start 0x0123 [])) (fun t => (t.pc, t.sysPulses)) = some (0x202, 1) := by decide

/-- L2-F1. -/
theorem test_jp : after (step (start 0x1ABC [])) (·.pc) = some 0xABC := by decide

/-- L2-F3: the return address wraps. -/
theorem test_call_wraps :
    after (step ({ State.reset with pc := 0xFFE }.withFetchWord 16 0x2400)) (fun t => (t.stack[0], t.sp, t.pc)) =
      some (0x000, 1, 0x400) := by decide

/-- L2-F6: the seventeenth CALL. -/
theorem test_call_overflow :
    after (step ({ State.reset with sp := 16 }.withFetchWord 16 0x2300))
      (fun t => (t.faultKind, t.faultPc, t.faultOpcode, t.sp)) = some (.stackOverflow, 0x200, 0x2300, 16) := by decide

/-- L2-F4. -/
theorem test_ret :
    after (step ({ State.reset with sp := 2, stack := State.reset.stack.set 1 0x20C }.withFetchWord 16 0x00EE))
      (fun t => (t.sp, t.pc)) = some (1, 0x20C) := by decide

/-- L2-C9. -/
theorem test_ret_underflow :
    after (step (start 0x00EE [])) (fun t => (t.faultKind, t.faultPc, t.faultOpcode, t.sp, t.pc)) =
      some (.stackUnderflow, 0x200, 0x00EE, 0, 0x200) := by decide

/-- L2-F8. -/
theorem test_jp_v0_wraps : after (step (start 0xBFFF [(0, 0xFF)])) (·.pc) = some 0x0FE := by decide

/-- L2-F9's start: V0, and not the register the X field would name. The vector prints PC = 0x001; R115 gives
(0x01 + 0xA00) mod 4096 = 0xA01, and the rule is followed (log entry 16). -/
theorem test_jp_v0_register : after (step (start 0xBA00 [(0, 0x01), (0xA, 0x55)])) (·.pc) = some 0xA01 := by decide

/-! ## Skips -/

/-- L2-S1, L2-S2. -/
theorem test_se_byte :
    after (step (start 0x3342 [(3, 0x42)])) (·.pc) = some 0x204 ∧
    after (step (start 0x3342 [(3, 0x41)])) (·.pc) = some 0x202 := by decide

/-- L2-S12: the skip wraps. -/
theorem test_se_byte_wraps :
    after (step ({ State.reset with pc := 0xFFC }.withFetchWord 16 0x3000)) (·.pc) = some 0x000 := by decide

/-- L2-S3, L2-S4. -/
theorem test_sne_byte :
    after (step (start 0x4342 [(3, 0x42)])) (·.pc) = some 0x202 ∧
    after (step (start 0x4342 [])) (·.pc) = some 0x204 := by decide

/-- L2-S5. -/
theorem test_se_reg : after (step (start 0x5120 [(1, 7), (2, 7)])) (·.pc) = some 0x204 := by decide

/-- L2-S6. -/
theorem test_sne_reg : after (step (start 0x9120 [(1, 7), (2, 8)])) (·.pc) = some 0x204 := by decide

/-- L2-S9: only the low nibble names the key. -/
theorem test_skp :
    after (step { start 0xE49E [(4, 0x1C)] with ports := { Ports.idle with keys := 0x1000 } }) (·.pc) =
      some 0x204 := by decide

/-- L2-S10, L2-S11. -/
theorem test_sknp :
    after (step { start 0xE4A1 [(4, 0x0C)] with ports := { Ports.idle with keys := 0x1000 } }) (·.pc) = some 0x202 ∧
    after (step (start 0xE4A1 [(4, 0x0C)])) (·.pc) = some 0x204 := by decide

/-! ## ALU. Vx is V1, Vy is V2, unless said otherwise. -/

/-- L2-A1. -/
theorem test_ld_byte : after (step (start 0x6112 [])) (fun t => (getV t 1, t.pc)) = some (0x12, 0x202) := by decide

/-- L2-A2: no carry. -/
theorem test_add_byte :
    after (step (start 0x71FF [(1, 0x01)])) (fun t => (getV t 1, getV t 0xF)) = some (0x00, 0) := by decide

/-- L2-A4. -/
theorem test_ld_reg : after (step (start 0x8120 [(1, 0x11), (2, 0x22)])) (getV · 1) = some 0x22 := by decide

/-- L2-A5. -/
theorem test_or : after (step (start 0x8121 [(1, 0xF0), (2, 0x0F)])) (getV · 1) = some 0xFF := by decide

/-- L2-A6. -/
theorem test_and : after (step (start 0x8122 [(1, 0xF0), (2, 0x3C)])) (getV · 1) = some 0x30 := by decide

/-- L2-A7. -/
theorem test_xor : after (step (start 0x8123 [(1, 0xFF), (2, 0x0F)])) (getV · 1) = some 0xF0 := by decide

/-- L2-A9. -/
theorem test_add :
    after (step (start 0x8124 [(1, 0xFF), (2, 0xFF)])) (fun t => (getV t 1, getV t 0xF)) = some (0xFE, 1) := by decide

/-- L2-A26: VF as the destination, both orders. -/
theorem test_add_to_vf :
    after (step (start 0x8F14 [(0xF, 0xFF), (1, 0x01)])) (getV · 0xF) = some 0x00 ∧
    after (step ((withRegs resultFirst [(0xF, 0xFF), (1, 0x01)]).withFetchWord 16 0x8F14)) (getV · 0xF) = some 1 := by
  decide

/-- L2-A12. -/
theorem test_sub_borrows :
    after (step (start 0x8125 [(1, 0x00), (2, 0x01)])) (fun t => (getV t 1, getV t 0xF)) = some (0xFF, 0) := by decide

/-- L2-A13: equal operands clear VF. -/
theorem test_sub_equal :
    after (step (start 0x8125 [(1, 5), (2, 5), (0xF, 9)])) (fun t => (getV t 1, getV t 0xF)) = some (0, 0) := by decide

/-- L2-A15. -/
theorem test_subn :
    after (step (start 0x8127 [(1, 0x01), (2, 0x03)])) (fun t => (getV t 1, getV t 0xF)) = some (0x02, 1) := by decide

/-- L2-A16. -/
theorem test_subn_borrows :
    after (step (start 0x8127 [(1, 0x01), (2, 0x00)])) (fun t => (getV t 1, getV t 0xF)) = some (0xFF, 0) := by decide

/-- L2-A19. -/
theorem test_shr :
    after (step (start 0x8126 [(1, 0xFF)])) (fun t => (getV t 1, getV t 0xF)) = some (0x7F, 1) := by decide

/-- L2-A24. -/
theorem test_shr_cosmac :
    after (step ((withRegs cosmac [(1, 0x00), (2, 0x03)]).withFetchWord 16 0x8126)) (fun t => (getV t 1, getV t 0xF)) =
      some (0x01, 1) := by decide

/-- L2-A23. -/
theorem test_shl :
    after (step (start 0x812E [(1, 0x81)])) (fun t => (getV t 1, getV t 0xF)) = some (0x02, 1) := by decide

/-- L2-A25. -/
theorem test_shl_cosmac :
    after (step ((withRegs cosmac [(1, 0xFF), (2, 0x40)]).withFetchWord 16 0x812E)) (fun t => (getV t 1, getV t 0xF)) =
      some (0x80, 0) := by decide

/-- L2-A32: a mask of 0 leaves nothing of the draw. -/
theorem test_rnd_masks : after (exec (.rnd 0x1 0x00) (start 0xC100 [(1, 0xFF)])) (getV · 1) = some 0x00 := by
  show some (getV (setV _ 1 (Config.rndDraw _ &&& 0x00#8)) 1) = _
  rw [BitVec.and_zero]
  decide

/-! ## Index register and memory -/

/-- L2-M1. -/
theorem test_ld_i : after (step (start 0xAFFF [])) (·.index) = some 0x0FFF := by decide

/-- L2-M2: I wraps at 65536 and VF stays. -/
theorem test_add_i :
    after (step { start 0xF11E [(1, 0x02), (0xF, 7)] with index := 0xFFFF }) (fun t => (t.index, getV t 0xF)) =
      some (0x0001, 7) := by decide

/-- L2-M4: only the low nibble names the glyph. -/
theorem test_ld_f : after (step (start 0xF129 [(1, 0x1F)])) (·.index) = some 0x004B := by decide

/-- L2-M7: the digits wrap past the top of memory. -/
theorem test_ld_b :
    after (step { start 0xF133 [(1, 0x80)] with index := 0xFFF }) (fun t => readBytes t 0xFFF 3) = some [1, 2, 8] := by
  decide

/-- L2-M10: a store over the font. -/
theorem test_store_regs :
    after (step { start 0xF155 [(0, 0xAA), (1, 0xBB)] with index := 0xFFF }) (fun t => (readBytes t 0xFFF 2, t.index)) =
      some ([0xAA, 0xBB], 0xFFF) := by decide

/-- L2-M9: I moves under `increment`. -/
theorem test_store_regs_increment :
    after (step { (withRegs increment [(0, 1), (1, 2), (2, 3)]).withFetchWord 16 0xF255 with index := 0x300 })
      (fun t => (readBytes t 0x300 4, t.index)) = some ([1, 2, 3, 0], 0x303) := by decide

/-- L2-M12: V1 stays. -/
theorem test_load_regs :
    after (step (writeByte { start 0xF065 [(1, 0x99)] with index := 0x300 } 0x300 0x77))
      (fun t => (getV t 0, getV t 1)) = some (0x77, 0x99) := by decide

/-- L2-M13: I wraps at 65536. -/
theorem test_load_regs_increment :
    after (step (writeByte { increment.withFetchWord 16 0xF065 with index := 0xFFFF } 0xFFF 0x5A))
      (fun t => (getV t 0, t.index)) = some (0x5A, 0x0000) := by decide

/-! ## Timers and keys -/

/-- L2-T1, tick 2: FX07 reads before the tick's countdown. -/
theorem test_ld_vx_dt :
    after (step { start 0xF207 [] with dt := 4 }) (fun t => (getV t 2, t.dt)) = some (4, 3) := by decide

/-- L2-T1, tick 1. -/
theorem test_ld_dt_vx : after (step (start 0xF115 [(1, 5)])) (·.dt) = some 4 := by decide

/-- L2-T2: ST = 1 never sounds. -/
theorem test_ld_st_vx_one : after (step (start 0xF118 [(1, 1)])) (fun t => (t.st, t.soundOn)) = some (0, false) := by decide

/-- L2-T3: ST = 2 sounds for one tick. -/
theorem test_ld_st_vx_two : after (step (start 0xF118 [(1, 2)])) (fun t => (t.st, t.soundOn)) = some (1, true) := by decide

/-- L2-T4, tick 1. -/
theorem test_ld_vx_k_waits :
    after (step (start 0xF30A [])) (fun t => (t.status, t.pc, t.waitX)) = some (.waitKey, 0x200, 3) := by decide

/-- L2-T4, tick 2: the key comes. -/
theorem test_ld_vx_k_completes :
    after (step { waitingFrom 0 with ports := { Ports.idle with keys := 0x0080 } })
      (fun t => (getV t 3, t.pc, t.status)) = some (7, 0x202, .run) := by decide

/-! ## Display -/

/-- L2-D1. -/
theorem test_cls :
    after (step { start 0x00E0 [(0xF, 7)] with grid := setCell Grid.blank 3 5 true })
      (fun t => (cell t.grid 3 5, getV t 0xF)) = some (false, 7) := by decide

/-- L2-D5: X = F reads the old VF, and VF becomes the collision. -/
theorem test_drw_collides :
    after (step (writeByte { start 0xDF01 [] with index := 0x300, grid := setCell Grid.blank 0 0 true } 0x300 0x80))
      (fun t => (cell t.grid 0 0, getV t 0xF)) = some (false, 1) := by decide

/-- L1-B1, one row: pixels past the right edge wrap, or go under `clip`. -/
theorem test_drw_edge :
    after (step (writeByte { start 0xD011 [(0, 63), (1, 31)] with index := 0x300 } 0x300 0xC0))
      (fun t => (cell t.grid 31 63, cell t.grid 31 0, cell t.grid 0 0)) = some (true, true, false) ∧
    after (step (writeByte { (withRegs clipping [(0, 63), (1, 31)]).withFetchWord 16 0xD011 with index := 0x300 } 0x300 0xC0))
      (fun t => (cell t.grid 31 63, cell t.grid 31 0)) = some (true, false) := by decide

/-! ## Witnesses: a state and operands that meet the hypotheses of each statement that has some, clause by clause.
The name says the statement. -/

theorem witness_DecodeInvertsEncode : (Instr.drw 0x1 0x2 0xF).wf = true ∧ (Instr.sys 0xFFF).wf = true := by decide

theorem witness_SkipComparesRegister : (0x1 : Nibble) ≠ 0 ∧ (0xF : Nibble) ≠ 0 := by decide

theorem witness_EncodeInvertsDecode : decodeWord 0xD12F = .ok (.drw 0x1 0x2 0xF) := by decide

theorem witness_SysOnlyAdvances : (0x0E1 : Addr) ≠ 0x0E0 ∧ (0x0E1 : Addr) ≠ 0x0EE := by decide

theorem witness_JumpToItselfChangesNothing :
    (start 0x1200 []).pc.toNat = (0x200 : Addr).toNat ∧ fetchWord (start 0x1200 []) = 0x1#4 ++ 0x200#12 := by decide

/-- An empty stack, one with room for one entry, and a full one. -/
theorem witness_CallPushesReturnAddress :
    State.reset.sp.toNat < 16 ∧ { State.reset with sp := 15 }.sp.toNat < 16 ∧
    { State.reset with sp := 16 }.sp.toNat = 16 := by decide

/-- A stack with one entry, a full one, and an empty one. -/
theorem witness_ReturnPopsAddress :
    (1 ≤ { State.reset with sp := 1 }.sp.toNat ∧ { State.reset with sp := 1 }.sp.toNat ≤ 16) ∧
    (1 ≤ { State.reset with sp := 16 }.sp.toNat ∧ { State.reset with sp := 16 }.sp.toNat ≤ 16) ∧
    State.reset.sp.toNat = 0 := by decide

theorem witness_StackDepthOutOfRangeStops : 16 < { State.reset with sp := 17 }.sp.toNat := by decide

theorem witness_CallThenReturnComesBack :
    ∃ t, State.reset.sp.toNat < 16 ∧ exec (.call 0x300) State.reset = .next t ∧
      { t with v := Vector.replicate 16 7 }.stack = t.stack ∧ { t with v := Vector.replicate 16 7 }.sp = t.sp :=
  ⟨_, by decide, rfl, rfl, rfl⟩

/-- Both choices of `QUIRK_SHIFT`, each with the source it asks for. -/
theorem witness_ShiftSetsShiftedOutBit :
    (State.reset.cfg.quirkShift = .modern ∧ 0 = (getV State.reset 1).toNat) ∧
    (cosmac.cfg.quirkShift = .cosmac ∧ 3 = (getV (withRegs cosmac [(2, 3)]) 2).toNat) := by decide

theorem witness_DecimalDigitsAreStored : Memory.wf State.reset.cfg.font State.reset.mem = true := by decide

/-- Memory with an entry listed; both choices of `QUIRK_LOAD_STORE`; an address outside the bytes stored. -/
theorem witness_RegistersAreStored :
    Memory.wf increment.cfg.font (writeByte increment 0x300 7).mem = true ∧
    State.reset.cfg.quirkLoadStore = .leave ∧ increment.cfg.quirkLoadStore = .increment ∧ (0xF : RegIdx).toNat ≤ (0xF : RegIdx).toNat ∧
    ∀ k ≤ (0x1 : RegIdx).toNat, 0x200 % 4096 ≠ (State.reset.index.toNat + k) % 4096 := by decide

theorem witness_RegistersAreLoaded :
    State.reset.cfg.quirkLoadStore = .leave ∧ increment.cfg.quirkLoadStore = .increment ∧
    (0x0 : RegIdx).toNat ≤ (0x0 : RegIdx).toNat ∧ (0x0 : RegIdx).toNat < (0x1 : RegIdx).toNat := by decide

theorem witness_StoreThenLoadRestores :
    ∃ t, Memory.wf State.reset.cfg.font State.reset.mem = true ∧ exec (.storeRegs 0x1) State.reset = .next t ∧
      t.index = State.reset.index ∧
      ∀ k ≤ (0x1 : RegIdx).toNat, readByte t (State.reset.index.toNat + k) = readByte t (State.reset.index.toNat + k) :=
  ⟨_, by decide, rfl, rfl, fun _ _ => rfl⟩

/-- Key F down since Kbase, and no key down. -/
theorem witness_KeyWaitPolls :
    (∃ k, newlyPressed { State.reset with keys := 0x8000 } k) ∧ ∀ k, ¬ newlyPressed State.reset k := by
  refine ⟨⟨0xF, by unfold newlyPressed; decide⟩, fun k h => ?_⟩
  simp [newlyPressed, State.reset, State.resetWith] at h

/-- ST = 2 and ST = 1 after one tick's end: a sound and none. -/
theorem witness_SoundLastsOneTickLess :
    ({ State.reset with st := 2 }.st = 2 ∧ 0 + 1 < (2 : Byte).toNat) ∧
    ({ State.reset with st := 1 }.st = 1 ∧ ¬ 0 + 1 < (1 : Byte).toNat) := by decide

/-- A lit cell under a lit pixel. -/
theorem witness_DrawXorsSpriteAndReportsCollision :
    ∃ gy < 32, ∃ gx < 64, cell (setCell Grid.blank 0 0 true) gy gx = true ∧
      spritePixel .wrap 0 0 [0x80] gy gx = true :=
  ⟨0, by decide, 0, by decide, by decide, by decide⟩

/-- A grid with no cell lit. -/
theorem witness_DrawWithoutCollision :
    ∀ gy < 32, ∀ gx < 64, ¬ (cell Grid.blank gy gx = true ∧ spritePixel .wrap 0 0 [0x80] gy gx = true) :=
  fun gy _ gx _ h => by simp at h

theorem witness_DoubleBlitRestoresGrid : (List.replicate 15 (0xFF : Byte)).length ≤ 15 := by decide

/-- A state within a tick of three slots: one used, the instruction 6A12 next. -/
def midTick : State := { threeCycles.withFetchWord 16 0x6A12 with slotsLeft := 2 }

theorem witness_StepRunsDecodedInstruction :
    (midTick.status = .run ∧ decode [readByte midTick midTick.pc.toNat, readByte midTick (midTick.pc.toNat + 1)] =
      .ok (.ldByte 0xA 0x12, []) ∧ midTick.slotsLeft ≠ 0) ∧
    ((start 0x6A12 []).status = .run ∧
      decode [readByte (start 0x6A12 []) (start 0x6A12 []).pc.toNat, readByte (start 0x6A12 []) ((start 0x6A12 []).pc.toNat + 1)] =
        .ok (.ldByte 0xA 0x12, []) ∧ (start 0x6A12 []).slotsLeft = 0 ∧
      (nextPorts (start 0x6A12 [])).ports.shutdown = false ∧ (nextPorts (start 0x6A12 [])).ports.hostFault = false) := by
  decide

theorem witness_WaitingStepOnlyPolls :
    { waitingFrom 0 with slotsLeft := 2 }.status = .waitKey ∧ { waitingFrom 0 with slotsLeft := 2 }.slotsLeft ≠ 0 ∧
    (waitingFrom 0).status = .waitKey ∧ (waitingFrom 0).slotsLeft = 0 ∧ (nextPorts (waitingFrom 0)).ports.shutdown = false ∧
    (nextPorts (waitingFrom 0)).ports.hostFault = false := by decide

theorem witness_KeyWaitOutlastsItsTick :
    { waitingFrom 0 with slotsLeft := 2 }.status = .waitKey ∧ WaitOk { waitingFrom 0 with slotsLeft := 2 } ∧
    { waitingFrom 0 with slotsLeft := 2 }.slotsLeft ≠ 0 := by
  unfold WaitOk
  decide

/-- An illegal word within a tick, and at a boundary with the default budget of one cycle. -/
theorem witness_IllegalWordFaults :
    let s : State := { threeCycles.withFetchWord 16 0xF1FF with slotsLeft := 3 }
    let u : State := start 0xF1FF []
    (decodeWord (fetchWord s) = .error .illegalF ∧ s.status = .run ∧ s.slotsLeft ≠ 0) ∧
    (decodeWord (fetchWord u) = .error .illegalF ∧ u.status = .run ∧ u.slotsLeft = 0 ∧
      (nextPorts u).ports.shutdown = false ∧ (nextPorts u).ports.hostFault = false) := by decide

/-- An illegal word and a RET on an empty stack within a tick, and the RET at a boundary with the default budget. -/
theorem witness_FaultsArePreciseAndEndTheTick :
    let s : State := { threeCycles.withFetchWord 16 0xF1FF with slotsLeft := 3 }
    let u : State := { threeCycles.withFetchWord 16 0x00EE with slotsLeft := 3 }
    let b : State := start 0x00EE []
    ∃ t w c, (s.status = .run ∧ cycle s = .next t ∧ t.status = .fault ∧ s.slotsLeft ≠ 0) ∧
      (u.status = .run ∧ cycle u = .next w ∧ w.status = .fault ∧ u.slotsLeft ≠ 0) ∧
      (b.status = .run ∧ b.slotsLeft = 0 ∧ (nextPorts b).ports.shutdown = false ∧ (nextPorts b).ports.hostFault = false ∧
        cycle (openTick (nextPorts b)) = .next c ∧ c.status = .fault) :=
  ⟨_, _, _, ⟨rfl, rfl, rfl, by decide⟩, ⟨rfl, rfl, rfl, by decide⟩, ⟨rfl, rfl, rfl, rfl, rfl, rfl⟩⟩

/-- PC at the top of memory, and an address away from the two bytes there. -/
theorem witness_FetchIsBigEndian :
    let s : State := { State.reset with pc := 0xFFF }
    Memory.wf s.cfg.font s.mem = true ∧ 0x200 % 4096 ≠ s.pc.toNat % 4096 ∧ 0x200 % 4096 ≠ (s.pc.toNat + 1) % 4096 := by
  decide

theorem witness_FaultAndStoppedAreFinal :
    { State.reset with status := .fault }.status = .fault ∧ { State.reset with status := .stopped }.status = .stopped := by
  decide

theorem witness_ShutdownAndHostFaultAtBoundary :
    let s : State := { State.reset with ports := { keys := 0, shutdown := true, hostFault := true } }
    let u : State := { waitingFrom 0 with ports := { keys := 0, shutdown := false, hostFault := true } }
    (s.status = .run ∧ s.slotsLeft = 0 ∧ (nextPorts s).ports.shutdown = true) ∧
    (u.status = .waitKey ∧ u.slotsLeft = 0 ∧ (nextPorts u).ports.shutdown = false ∧ (nextPorts u).ports.hostFault = true) := by
  decide

/-- A tick of three steps: the hypothesis, and a `tick` that answers. -/
theorem witness_StepsMakeTheTick : threeCycles.slotsLeft = 0 ∧ ∃ t, tick threeCycles = .next t := ⟨rfl, _, rfl⟩

theorem witness_KeysAreConstantWithinTick :
    (∃ t, step midTick = .next t ∧ midTick.slotsLeft ≠ 0) ∧
    (∃ t, step State.reset = .next t ∧ State.reset.slotsLeft = 0 ∧ State.reset.status = .run ∧
      (nextPorts State.reset).ports.shutdown = false ∧ (nextPorts State.reset).ports.hostFault = false) :=
  ⟨⟨_, rfl, by decide⟩, ⟨_, rfl, by decide⟩⟩

/-- Within a tick, with an entry in memory and on the stack. -/
theorem witness_RangesAreKept : ∃ t, Ranges { midTick with sp := 1 } ∧ step { midTick with sp := 1 } = .next t := by
  refine ⟨_, ?_, rfl⟩
  unfold Ranges
  decide

theorem witness_RecordAndWaitAreKept : ∃ t, RecordOk (waitingFrom 0) ∧ WaitOk (waitingFrom 0) ∧ step (waitingFrom 0) = .next t := by
  refine ⟨_, ?_, ?_, rfl⟩
  · unfold RecordOk
    decide
  · unfold WaitOk
    decide

theorem witness_OutputsAreKept : ∃ t, OutputsOk midTick ∧ step midTick = .next t := by
  refine ⟨_, ?_, rfl⟩
  unfold OutputsOk
  decide

theorem witness_StepAlwaysAnswers : Ranges midTick := by
  unfold Ranges
  decide

/-- A register that is not the destination, and VF under an instruction that writes no flag. -/
theorem witness_RegistersChangeOnlyAsListed :
    ∃ t u, (exec (.addReg 0x1 0x2) State.reset = .next t ∧ namesDest (.addReg 0x1 0x2) 0x3 = false ∧
        ((0x3 : RegIdx) = 0xF → writesFlag (.addReg 0x1 0x2) = false)) ∧
      (exec (.addByte 0x1 0xFF) State.reset = .next u ∧ namesDest (.addByte 0x1 0xFF) 0xF = false ∧
        ((0xF : RegIdx) = 0xF → writesFlag (.addByte 0x1 0xFF) = false)) :=
  ⟨_, _, ⟨rfl, by decide, by decide⟩, ⟨rfl, by decide, by decide⟩⟩

theorem witness_MemoryChangesOnlyByStores :
    ∃ t, exec (.loadRegs 0x2) State.reset = .next t ∧ (∀ x, Instr.loadRegs 0x2 ≠ .ldB x) ∧
      (∀ x, Instr.loadRegs 0x2 ≠ .storeRegs x) :=
  ⟨_, rfl, fun _ h => (nomatch h), fun _ h => (nomatch h)⟩

theorem witness_StackChangesOnlyByCallAndReturn :
    ∃ t, exec (.jp 0x300) State.reset = .next t ∧ (∀ nnn, Instr.jp 0x300 ≠ .call nnn) ∧ Instr.jp 0x300 ≠ .ret :=
  ⟨_, rfl, fun _ h => (nomatch h), fun h => (nomatch h)⟩

theorem witness_GridChangesOnlyByClearAndDraw :
    ∃ t, exec (.jp 0x300) State.reset = .next t ∧ Instr.jp 0x300 ≠ .cls ∧ (∀ x y n, Instr.jp 0x300 ≠ .drw x y n) :=
  ⟨_, rfl, fun h => (nomatch h), fun _ _ _ h => (nomatch h)⟩

theorem witness_PcAfterEveryInstruction : ∃ t, exec (.jpV0 0xFFF) State.reset = .next t := ⟨_, rfl⟩

/-- RET on an empty stack, and CALL on a full one. -/
theorem witness_OnlyTheStackFaults :
    ∃ t u, (exec .ret State.reset = .next t ∧ State.reset.status ≠ .fault ∧ t.status = .fault) ∧
      (exec (.call 0x300) { State.reset with sp := 16 } = .next u ∧ State.reset.status ≠ .fault ∧ u.status = .fault) :=
  ⟨_, _, ⟨rfl, by decide, rfl⟩, ⟨rfl, by decide, rfl⟩⟩

theorem witness_ParametersAreKept : ∃ t, step State.reset = .next t := ⟨_, rfl⟩

/-- A glyph's last byte, and the ends of the zero range. -/
theorem witness_ResetValues : (15 < 16 ∧ 4 < 5) ∧ (0x050 ≤ 0x050 ∧ 0x050 ≤ 0xFFF) ∧ (0x050 ≤ 0xFFF ∧ 0xFFF ≤ 0xFFF) := by
  decide

theorem witness_ReadGivesLastWrite : Memory.wf State.reset.cfg.font (writeByte State.reset 0 0x12).mem = true := by decide

/-- The longest image's length, an image's last byte, and addresses on both sides of the image. -/
theorem witness_LoadPlacesImage :
    Memory.wf State.reset.cfg.font State.reset.mem = true ∧ 3584 ≤ 3584 ∧ ([0x12, 0x00] : List Byte).length ≤ 3584 ∧
    1 < ([0x12, 0x00] : List Byte).length ∧ (0x1FF < 4096 ∧ 0x1FF < 0x200) ∧
    (0x202 < 4096 ∧ 0x200 + ([0x12, 0x00] : List Byte).length ≤ 0x202) := by decide

/-- FX55 of V0 and V1 at I = 0x300 with PC at its first byte, and FX33 with PC at the byte before. -/
theorem witness_StoredBytesAreFetched :
    let s : State := { State.reset with index := 0x300 }
    ∃ t w, Memory.wf s.cfg.font s.mem = true ∧ MemSame t { t with pc := 0x300 } ∧ exec (.storeRegs 0x1) s = .next t ∧
      0x300 % 4096 = (s.index.toNat + (0x0 : RegIdx).toNat) % 4096 ∧ exec (.ldB 0x1) s = .next w ∧
      MemSame w { w with pc := 0x2FF } ∧ (0x2FF + 1) % 4096 = (s.index.toNat + 0) % 4096 :=
  ⟨_, _, rfl, fun _ => rfl, rfl, rfl, rfl, fun _ => rfl, rfl⟩

/-! ## The host's two questions: the first step from reset runs the word placed there -/

theorem test_first_step_runs_the_word :
    after (step (State.reset.withFetchWord 16 0x6A12)) (fun t => (getV t 0xA, t.pc)) = some (0x12, 0x202) := by decide

end Sys2Proof.Tests
end

section
/-! SUPPORT. The parameters ride through the parts of a step unchanged (00_scope.md R8; log entry 1). -/

namespace Sys2Proof.Machine

/-! ### The parameters through one step -/

@[simp] theorem openTick_cfg (s : State) : (openTick s).cfg = s.cfg := rfl

@[simp] theorem endTick_cfg (s : State) : (endTick s).cfg = s.cfg := rfl

@[simp] theorem hostFault_cfg (s : State) : (hostFault s).cfg = s.cfg := rfl

@[simp] theorem waitPoll_cfg (s : State) : (waitPoll s).2.cfg = s.cfg := by
  rcases waitPoll_cases s with ⟨_, -, completed⟩ | ⟨-, pending⟩
  · simp [completed]
  · simp [pending]

@[simp] theorem afterAttempt_cfg (goOn : Bool) (s : State) : (afterAttempt goOn s).cfg = s.cfg := by
  rcases afterAttempt_cases goOn s with ⟨-, cut⟩ | ⟨-, -, -, used⟩ | ⟨-, ended⟩
  · rw [cut]
  · rw [used]
  · rw [ended, endTick_cfg]

theorem cycle_cfg {s t : State} (h : cycle s = .next t) : t.cfg = s.cfg := by
  rcases cycle_cases h with ⟨_, -, executed⟩ | rfl
  · exact (exec_untouched executed).1
  · rfl

theorem AttemptFrom.cfg_eq {s u : State} (h : AttemptFrom s u) : u.cfg = s.cfg := by
  rcases h with ⟨rfl, -⟩ | ⟨rfl, -⟩
  · rfl
  · simp

/-- Settles O56: each of the things a step can do keeps the parameters. -/
theorem parametersAreKept : Obligations.ParametersAreKept := by
  intro s t h
  rcases step_cases h with
    ⟨-, rfl⟩ | ⟨-, -, -, rfl⟩ | ⟨-, -, -, -, rfl⟩ | ⟨u, from_s, -, ⟨-, w, ran, rfl⟩ | ⟨-, rfl⟩⟩
  · rfl
  · exact nextPorts_cfg s
  · simp
  · rw [afterAttempt_cfg, cycle_cfg ran, from_s.cfg_eq]
  · rw [afterAttempt_cfg, waitPoll_cfg, from_s.cfg_eq]

end Sys2Proof.Machine
end

section
/-! SUPPORT. What the registers, the grid and memory hold after reset (10_state.md R41, 20_memory.md R55 and R56). -/

namespace Sys2Proof.Machine

/-! ### Reset -/

theorem getV_resetWith (cfg : Config) (r : RegIdx) : getV (State.resetWith cfg) r = 0 :=
  Vector.getElem_replicate r.isLt

/-- After reset nothing is listed, so every address holds its reset byte. -/
theorem readByte_resetWith (cfg : Config) (a : Nat) :
    readByte (State.resetWith cfg) a = resetByte cfg.font (a % 4096) :=
  readByte_of_mem_nil rfl a

/-- Glyph d of the font lies at 5·d to 5·d + 4 (R55). -/
theorem resetByte_glyph (font : Font) {d k : Nat} (hd : d < 16) (hk : k < 5) :
    resetByte font (5 * d + k) = font[d][k] := by
  have inFont : 5 * d + k < 80 := by omega
  have glyph : (5 * d + k) / 5 = d := by omega
  have column : (5 * d + k) % 5 = k := by omega
  simp only [resetByte, inFont, glyph, column, dite_true]

theorem resetByte_past_font (font : Font) {a : Nat} (h : 80 ≤ a) : resetByte font a = 0 :=
  dif_neg (Nat.not_lt.2 h)

theorem readByte_resetWith_glyph (cfg : Config) {d k : Nat} (hd : d < 16) (hk : k < 5) :
    readByte (State.resetWith cfg) (5 * d + k) = cfg.font[d][k] := by
  have inMemory : 5 * d + k < 4096 := by omega
  rw [readByte_resetWith, Nat.mod_eq_of_lt inMemory, resetByte_glyph]

theorem readByte_resetWith_past_font (cfg : Config) {a : Nat} (h : 0x050 ≤ a) (ha : a ≤ 0xFFF) :
    readByte (State.resetWith cfg) a = 0 := by
  have inMemory : a < 4096 := by omega
  rw [readByte_resetWith, Nat.mod_eq_of_lt inMemory, resetByte_past_font _ h]

/-- After reset the five bytes from 5·d are glyph d (R55). -/
theorem readBytes_resetWith_glyph (cfg : Config) {d : Nat} (hd : d < 16) :
    readBytes (State.resetWith cfg) (5 * d) 5 = cfg.font[d].toList := by
  refine List.ext_getElem (by simp) fun k hk _ => ?_
  rw [readBytes_getElem, readByte_resetWith_glyph cfg hd (by simpa using hk), Vector.getElem_toList]

/-- After reset the first 80 bytes, five to a row, are the font's sixteen glyphs (R55). -/
theorem map_readBytes_resetWith_eq_font (cfg : Config) :
    (List.range 16).map (fun d => readBytes (State.resetWith cfg) (5 * d) 5) = cfg.font.toList.map Vector.toList := by
  refine List.ext_getElem (by simp) fun d hd _ => ?_
  have hd : d < 16 := by simpa using hd
  simp [readBytes_resetWith_glyph cfg hd]

/-- Settles O57: the registers and the flags by the reset state's definition, V, the grids and memory by their lemmas, and
the default font's rows by the font's own law. -/
theorem resetValues : Obligations.ResetValues := by
  refine ⟨fun cfg => ⟨rfl, rfl, rfl, getV_resetWith cfg, rfl, rfl, fun k h => Vector.getElem_replicate h,
    fun y _ x _ => cell_blank y x, rfl, rfl, fun d hd k hk => readByte_resetWith_glyph cfg hd hk,
    fun a h ha => readByte_resetWith_past_font cfg h ha, rfl, rfl, rfl, rfl, rfl, fun y _ x _ => cell_blank y x, rfl⟩,
    rfl, rfl, rfl, rfl, rfl, rfl, rfl, ?_⟩
  exact (map_readBytes_resetWith_eq_font defaultConfig).trans rfl

end Sys2Proof.Machine
end

section
/-! SUPPORT. The fields of a word and the formats that put them together again: the word of a decoded instruction is
the word it was decoded from (30_encoding.md R71, R74, R78). -/

namespace Sys2Proof

/-! ### Fields and formats -/

@[simp] theorem fieldN1_formNNN (n1 : Nibble) (nnn : Addr) : fieldN1 (formNNN n1 nnn) = n1 :=
  BitVec.extractLsb'_append_eq_left

@[simp] theorem fieldNNN_formNNN (n1 : Nibble) (nnn : Addr) : fieldNNN (formNNN n1 nnn) = nnn :=
  BitVec.extractLsb'_append_eq_right

theorem formNNN_fields (op : Word) : formNNN (fieldN1 op) (fieldNNN op) = op :=
  BitVec.extractLsb'_append_extractLsb' (w := 4) (len := 12)

theorem formXNN_fields (op : Word) : formXNN (fieldN1 op) (fieldX op) (fieldNN op) = op := by
  have high : fieldN1 op ++ fieldX op = op.extractLsb' 8 8 :=
    BitVec.extractLsb'_append_extractLsb'_eq_extractLsb' rfl
  rw [formXNN, high]
  exact BitVec.extractLsb'_append_extractLsb' (w := 8) (len := 8)

theorem formXYN_fields (op : Word) : formXYN (fieldN1 op) (fieldX op) (fieldY op) (fieldN op) = op := by
  have high : fieldN1 op ++ fieldX op = op.extractLsb' 8 8 :=
    BitVec.extractLsb'_append_extractLsb'_eq_extractLsb' rfl
  have upper : op.extractLsb' 8 8 ++ fieldY op = op.extractLsb' 4 12 :=
    BitVec.extractLsb'_append_extractLsb'_eq_extractLsb' rfl
  rw [formXYN, high, upper]
  exact BitVec.extractLsb'_append_extractLsb' (w := 12) (len := 4)

/-! ### A word whose code fields are known -/

theorem eq_formNNN {op : Word} {n1 : Nibble} (h : fieldN1 op = n1) : formNNN n1 (fieldNNN op) = op :=
  h ▸ formNNN_fields op

theorem eq_formXNN {op : Word} {n1 : Nibble} (h : fieldN1 op = n1) : formXNN n1 (fieldX op) (fieldNN op) = op :=
  h ▸ formXNN_fields op

theorem eq_formXNN_code {op : Word} {n1 : Nibble} {nn : Byte} (h : fieldN1 op = n1) (code : fieldNN op = nn) :
    formXNN n1 (fieldX op) nn = op :=
  code ▸ eq_formXNN h

theorem eq_formXYN {op : Word} {n1 : Nibble} (h : fieldN1 op = n1) :
    formXYN n1 (fieldX op) (fieldY op) (fieldN op) = op :=
  h ▸ formXYN_fields op

theorem eq_formXYN_code {op : Word} {n1 n : Nibble} (h : fieldN1 op = n1) (code : fieldN op = n) :
    formXYN n1 (fieldX op) (fieldY op) n = op :=
  code ▸ eq_formXYN h

/-! ### Encoding what was decoded -/

theorem encode_decode0 {op : Word} (h : fieldN1 op = 0x0) : encode (decode0 op) = op := by
  unfold decode0
  split_ifs with isCls isRet
  · exact isCls.symm
  · exact isRet.symm
  · exact eq_formNNN h

theorem encode_of_decode8 {op : Word} {i : Instr} (h : fieldN1 op = 0x8) (hi : decode8 op = .ok i) : encode i = op := by
  unfold decode8 at hi
  split at hi <;> cases hi <;> exact eq_formXYN_code h (BitVec.eq_of_toNat_eq ‹_›)

theorem encode_of_decodeE {op : Word} {i : Instr} (h : fieldN1 op = 0xE) (hi : decodeE op = .ok i) : encode i = op := by
  unfold decodeE at hi
  split_ifs at hi <;> cases hi <;> exact eq_formXNN_code h ‹_›

theorem encode_of_decodeF {op : Word} {i : Instr} (h : fieldN1 op = 0xF) (hi : decodeF op = .ok i) : encode i = op := by
  unfold decodeF at hi
  split_ifs at hi <;> cases hi <;> exact eq_formXNN_code h ‹_›

/-- The word of a decoded instruction is the word it was decoded from (R78). -/
theorem encode_of_decodeWord {op : Word} {i : Instr} (hi : decodeWord op = .ok i) : encode i = op := by
  unfold decodeWord at hi
  split at hi
  case h_1 h => cases hi; exact encode_decode0 (BitVec.eq_of_toNat_eq h)
  case h_9 h => exact encode_of_decode8 (BitVec.eq_of_toNat_eq h) hi
  case h_15 h => exact encode_of_decodeE (BitVec.eq_of_toNat_eq h) hi
  case h_16 =>
    have bound : (fieldN1 op).toNat < 16 := (fieldN1 op).isLt
    have last : (fieldN1 op).toNat = 0xF := by simp only [imp_false] at *; omega
    exact encode_of_decodeF (BitVec.eq_of_toNat_eq last) hi
  case h_6 h | h_10 h =>
    split_ifs at hi with code
    cases hi; exact eq_formXYN_code (BitVec.eq_of_toNat_eq h) code
  case h_14 h => cases hi; exact eq_formXYN (BitVec.eq_of_toNat_eq h)
  case h_2 h | h_3 h | h_11 h | h_12 h => cases hi; exact eq_formNNN (BitVec.eq_of_toNat_eq h)
  case h_4 h | h_5 h | h_7 h | h_8 h | h_13 h => cases hi; exact eq_formXNN (BitVec.eq_of_toNat_eq h)

end Sys2Proof
end

section
/-! SUPPORT. CALL and RET on every stack depth up to 16 (10_state.md R29 and R30, 41_flow.md R113 and R114). -/

namespace Sys2Proof.Machine

open Sys2Proof.Safety

/-! ### Push, pop and what follows -/

/-- CALL with room: the return address at S[SP], SP one up, and the jump (R113, R29). -/
theorem execCall_of_room (nnn : Addr) {s : State} (room : s.sp.toNat < 16) :
    execCall nnn s = .next (jumpTo
      { advance s with stack := s.stack.set s.sp.toNat (advance s).pc room, sp := s.sp + 1 } (zext16 nnn)) := by
  rw [execCall, (push_eq_some (s := advance s)).2 ⟨room, rfl⟩]
  rfl

/-- CALL on a full stack: StackOverflow with the record, and nothing else (R29, R99). -/
theorem execCall_of_full (nnn : Addr) {s : State} (full : s.sp.toNat = 16) :
    execCall nnn s = .next (raiseFault .stackOverflow s.pc (encode (.call nnn)) s) := by
  have sp16 : s.sp = 16 := BitVec.eq_of_toNat_eq full
  have noRoom : push (advance s) (advance s).pc = none := push_eq_none.2 full.ge
  rw [execCall, noRoom, sp16]
  rfl

/-- RET with an entry: SP one down, and the jump to the entry taken off (R114, R30). -/
theorem execRet_of_entry {s : State} (entry : 1 ≤ s.sp.toNat ∧ s.sp.toNat ≤ 16) :
    execRet s = .next (jumpTo { advance s with sp := s.sp - 1 } (s.stack[s.sp.toNat - 1]'(by omega))) := by
  rw [execRet, (pop_eq_some (s := advance s)).2 ⟨entry, rfl, rfl⟩]
  rfl

/-- RET on an empty stack: StackUnderflow with the record, and nothing else (R30, R99). -/
theorem execRet_of_empty {s : State} (empty : s.sp.toNat = 0) :
    execRet s = .next (raiseFault .stackUnderflow s.pc (encode .ret) s) := by
  have sp0 : s.sp = 0 := BitVec.eq_of_toNat_eq empty
  have noEntry : pop (advance s) = none := pop_eq_none.2 (.inl empty)
  rw [execRet, noEntry, sp0]
  rfl

theorem sp_succ_toNat {s : State} (room : s.sp.toNat < 16) : (s.sp + 1).toNat = s.sp.toNat + 1 := by
  rw [BitVec.toNat_add]
  exact Nat.mod_eq_of_lt (by simp; omega)

theorem sp_pred_toNat {s : State} (entry : 1 ≤ s.sp.toNat) : (s.sp - 1).toNat = s.sp.toNat - 1 :=
  BitVec.toNat_sub_of_le (BitVec.le_def.2 entry)

/-- Settles O9: the decoder reads back the fields of 2NNN, and CALL is the push with room and the fault without. -/
theorem callPushesReturnAddress : Obligations.CallPushesReturnAddress := by
  intro nnn s
  refine ⟨?_, fun room => ⟨_, execCall_of_room nnn room, zext16_toNat nnn, sp_succ_toNat room, fun k h => ?_, rfl,
    fun _ => rfl⟩, execCall_of_full nnn⟩
  · change decodeWord (formNNN 0x2 nnn) = .ok (.call nnn)
    simp [decodeWord]
  · simp only [jumpTo_stack, Vector.getElem_set, eq_comm (a := s.sp.toNat)]
    split
    · exact advance_pc_toNat s
    · rfl

/-- Settles O10: RET is the pop with an entry and the fault without. -/
theorem returnPopsAddress : Obligations.ReturnPopsAddress := by
  refine ⟨rfl, fun s entry => ⟨_, execRet_of_entry entry, rfl, ?_, rfl, fun _ => rfl⟩, fun s => execRet_of_empty⟩
  rw [jumpTo_sp, sp_pred_toNat entry.1, Nat.sub_add_cancel entry.1]

end Sys2Proof.Machine
end

section
/-! SUPPORT. What an instruction that answers leaves alone, field by field (10_state.md R21, R22, R28, R33), and that
with SP in its range every instruction answers. -/

namespace Sys2Proof.Machine

open Sys2Proof.Safety

/-! ### The stack, the grid and the registers -/

/-- Settles O52: no other instruction's update has SP or the stack among its fields. -/
theorem stackChangesOnlyByCallAndReturn : Obligations.StackChangesOnlyByCallAndReturn := by
  intro i s t h notCall notRet
  cases i
  case call nnn => exact absurd rfl (notCall nnn)
  case ret => exact absurd rfl notRet
  all_goals
    cases h
    simp

/-- Settles O53: CALL and RET leave G alone with and without a fault, and no other update but those of CLS and DRW has G
among its fields. -/
theorem gridChangesOnlyByClearAndDraw : Obligations.GridChangesOnlyByClearAndDraw := by
  intro i s t h notCls notDrw
  cases i
  case cls => exact absurd rfl notCls
  case drw x y n => exact absurd rfl (notDrw x y n)
  case call nnn => rcases execCall_cases h with ⟨_, rfl⟩ | ⟨_, rfl⟩ <;> rfl
  case ret => rcases execRet_cases h with ⟨_, rfl⟩ | ⟨_, rfl⟩ <;> rfl
  all_goals
    cases h
    simp

/-- The two writes of R130 reach VF and Vx alone. -/
theorem getV_writeFlagResult_ne (s : State) {x r : RegIdx} (f : FlagResult) (notFlag : r ≠ 0xF) (notDest : r ≠ x) :
    getV (writeFlagResult s x f) r = getV s r := by
  rw [getV_writeFlagResult, if_neg fun h => notFlag h.1, if_neg notDest]

/-- Bytes loaded from V[0] on reach no register past the last of them. -/
theorem getV_setRegsFrom_past (s : State) {bs : List Byte} {r : RegIdx} (past : bs.length ≤ r.toNat) :
    getV (setRegsFrom s 0 bs) r = getV s r := by
  simp [getV_setRegsFrom, past]

/-- Settles O50: an instruction writes no register, or its destination, or VF and its destination, or VF alone (DRW), or
the registers up to X (FX65). -/
theorem registersChangeOnlyAsListed : Obligations.RegistersChangeOnlyAsListed := by
  intro i s t r h notDest noFlag
  cases i
  case call nnn => rcases execCall_cases h with ⟨_, rfl⟩ | ⟨_, rfl⟩ <;> rfl
  case ret => rcases execRet_cases h with ⟨_, rfl⟩ | ⟨_, rfl⟩ <;> rfl
  case addReg | subReg | shr | subnReg | shl =>
    cases h
    have notVx := by simpa [namesDest] using notDest
    have notVf : r ≠ 0xF := fun isVf => by simpa [writesFlag] using noFlag isVf
    simp [getV_writeFlagResult_ne _ _ notVf notVx]
  case drw x y n =>
    cases h
    have notVf : r ≠ 0xF := fun isVf => by simpa [writesFlag] using noFlag isVf
    exact getV_setV_ne (setGrid (advance s) _) _ notVf
  case loadRegs x =>
    cases h
    have past : x.toNat + 1 ≤ r.toNat := by simpa [namesDest] using notDest
    rw [getV_setIndex, getV_setRegsFrom_past _ (by simpa using past), getV_advance]
  case ldByte | addByte | ldReg | orReg | andReg | xorReg | rnd | ldVxDt =>
    cases h
    have notVx := by simpa [namesDest] using notDest
    simp [getV_setV_ne _ _ notVx]
  case ldVxK x =>
    cases h
    rfl
  all_goals
    cases h
    simp

/-! ### Answering -/

/-- With SP in its range CALL and RET find room or an entry, or fault at the limit (R27, R205). -/
theorem exec_answers (i : Instr) {s : State} (inRange : s.sp.toNat ≤ 16) : ∃ t, exec i s = .next t := by
  cases i
  case call nnn =>
    rcases inRange.lt_or_eq with room | full
    · exact ⟨_, execCall_of_room nnn room⟩
    · exact ⟨_, execCall_of_full nnn full⟩
  case ret =>
    rcases Nat.eq_zero_or_pos s.sp.toNat with empty | entry
    · exact ⟨_, execRet_of_empty empty⟩
    · exact ⟨_, execRet_of_entry ⟨entry, inRange⟩⟩
  all_goals exact ⟨_, rfl⟩

theorem cycle_answers {s : State} (inRange : s.sp.toNat ≤ 16) : ∃ t, cycle s = .next t := by
  rw [cycle_eq]
  cases decodeWord (fetchWord s) with
  | ok i => exact exec_answers i inRange
  | error e => exact ⟨_, rfl⟩

theorem attempt_answers {s : State} (inRange : s.sp.toNat ≤ 16) : ∃ t, attempt s = .next t := by
  obtain ⟨t, ran⟩ := cycle_answers inRange
  unfold attempt
  cases s.status with
  | run => exact ⟨afterAttempt true t, by simp [ran]⟩
  | waitKey | fault | stopped => exact ⟨_, rfl⟩

theorem startTick_answers {s : State} (inRange : s.sp.toNat ≤ 16) : ∃ t, startTick s = .next t := by
  unfold startTick
  dsimp only
  split_ifs
  · exact ⟨_, rfl⟩
  · exact ⟨_, rfl⟩
  · exact attempt_answers (by simpa [openTick] using inRange)

theorem running_iff {s : State} :
    s.status = .run ∨ s.status = .waitKey ↔ s.status ≠ .fault ∧ s.status ≠ .stopped := by
  cases s.status <;> simp

/-- Settles O49: with SP in its range the one stop of the model, a stack depth out of range, is shut out. -/
theorem stepAlwaysAnswers : Obligations.StepAlwaysAnswers := by
  rintro s ⟨-, inRange, -⟩
  by_cases frozen : s.status = .fault ∨ s.status = .stopped
  · exact ⟨s, step_of_frozen frozen⟩
  by_cases boundary : s.slotsLeft = 0
  · rw [step_of_boundary boundary (running_iff.2 (not_or.1 frozen))]
    exact startTick_answers inRange
  · rw [step_of_mid boundary]
    exact attempt_answers inRange

end Sys2Proof.Machine
end

section
/-! SUPPORT. PC, SP, the stack and memory in their ranges, through every part of a step (10_state.md R24, R26, R27, R42;
20_memory.md R50). -/

namespace Sys2Proof.Machine

open Sys2Proof.Safety

/-! ### The ranges without the budget, which a tick's beginning sets to its whole -/

/-- `Ranges` without its last part: PC below 4096, SP at most 16, stack entries below 4096, canonical memory. -/
def InBounds (s : State) : Prop :=
  s.pc.toNat < 4096 ∧ s.sp.toNat ≤ 16 ∧ (∀ k (h : k < 16), (s.stack[k]).toNat < 4096) ∧ Memory.wf s.cfg.font s.mem = true

theorem ranges_iff {s : State} : Ranges s ↔ InBounds s ∧ s.slotsLeft < s.cfg.cyclesPerTick.val := by
  simp only [Ranges, InBounds, and_assoc]

/-! ### An instruction -/

theorem setPc_pc_lt (s : State) (a : Nat) : (setPc s a).pc.toNat < 4096 := by
  rw [setPc_pc_toNat]
  exact Nat.mod_lt _ (by decide)

theorem advance_pc_lt (s : State) : (advance s).pc.toNat < 4096 :=
  setPc_pc_lt s _

theorem skipIf_pc_lt (c : Bool) {s : State} (h : s.pc.toNat < 4096) : (skipIf c s).pc.toNat < 4096 := by
  cases c
  · exact h
  · exact setPc_pc_lt s _

theorem zext16_lt (nnn : Addr) : (zext16 nnn).toNat < 4096 := by
  rw [zext16_toNat]
  exact nnn.isLt

/-- Every PC an instruction other than RET computes is reduced modulo 4096, is an NNN, or is the held PC. -/
theorem exec_pc_lt {i : Instr} {s t : State} (h : exec i s = .next t) (notRet : i ≠ .ret) (pc : s.pc.toNat < 4096) :
    t.pc.toNat < 4096 := by
  cases i
  case ret => exact absurd rfl notRet
  case call nnn =>
    rcases execCall_cases h with ⟨_, rfl⟩ | ⟨_, rfl⟩
    · exact zext16_lt nnn
    · exact pc
  case jp nnn =>
    cases h
    exact zext16_lt nnn
  case jpV0 nnn =>
    cases h
    exact setPc_pc_lt _ _
  case seByte | sneByte | seReg | sneReg | skp | sknp =>
    cases h
    exact skipIf_pc_lt _ (advance_pc_lt s)
  case ldVxK x =>
    cases h
    exact pc
  all_goals
    cases h
    simpa using advance_pc_lt s

/-- CALL pushes a reduced address below the limit, RET takes an entry that was in range, and no other instruction touches
the stack. -/
theorem exec_inBounds {i : Instr} {s t : State} (h : exec i s = .next t) (bounds : InBounds s) : InBounds t := by
  obtain ⟨pc, sp, stack, mem⟩ := bounds
  obtain ⟨cfg, -, -, -, -, -, -, wf⟩ := exec_untouched h
  have mem' : Memory.wf t.cfg.font t.mem = true := cfg ▸ wf mem
  by_cases isRet : i = .ret
  · subst isRet
    rcases execRet_cases h with ⟨entry, rfl⟩ | ⟨-, rfl⟩
    · have lower : (s.sp - 1).toNat ≤ 16 := by rw [sp_pred_toNat entry.1]; omega
      exact ⟨stack _ _, lower, stack, mem'⟩
    · exact ⟨pc, sp, stack, mem'⟩
  have pc' := exec_pc_lt h isRet pc
  by_cases isCall : ∃ nnn, i = .call nnn
  · obtain ⟨nnn, rfl⟩ := isCall
    rcases execCall_cases h with ⟨room, rfl⟩ | ⟨-, rfl⟩
    · have upper : (s.sp + 1).toNat ≤ 16 := by rw [sp_succ_toNat room]; exact room
      refine ⟨pc', upper, fun k hk => ?_, mem'⟩
      rw [jumpTo_stack, Vector.getElem_set]
      split
      · exact advance_pc_lt s
      · exact stack k hk
    · exact ⟨pc', sp, stack, mem'⟩
  · obtain ⟨sameSp, sameStack⟩ := stackChangesOnlyByCallAndReturn i s t h (not_exists.1 isCall) isRet
    exact ⟨pc', sameSp ▸ sp, sameStack ▸ stack, mem'⟩

/-! ### The parts of a step -/

theorem cycle_inBounds {s t : State} (h : cycle s = .next t) (bounds : InBounds s) : InBounds t := by
  rcases cycle_cases h with ⟨_, -, executed⟩ | rfl
  · exact exec_inBounds executed bounds
  · exact bounds

theorem waitPoll_inBounds {s : State} (bounds : InBounds s) : InBounds (waitPoll s).2 := by
  rcases waitPoll_cases s with ⟨_, -, completed⟩ | ⟨-, pending⟩
  · obtain ⟨-, sp, stack, mem⟩ := bounds
    rw [completed]
    exact ⟨advance_pc_lt _, sp, stack, mem⟩
  · rw [pending]
    exact bounds

theorem nextPorts_inBounds {s : State} (bounds : InBounds s) : InBounds (nextPorts s) := by
  rw [nextPorts_unchanged]
  exact bounds

/-- An attempt starts within the ranges, with at most the whole budget ahead. -/
theorem AttemptFrom.inBounds {s u : State} (h : AttemptFrom s u) (ranges : Ranges s) :
    InBounds u ∧ u.slotsLeft ≤ u.cfg.cyclesPerTick.val := by
  obtain ⟨bounds, budget⟩ := ranges_iff.1 ranges
  rcases h with ⟨rfl, -⟩ | ⟨rfl, -⟩
  · exact ⟨bounds, budget.le⟩
  · exact ⟨nextPorts_inBounds bounds, le_rfl⟩

/-- An attempt's end uses a slot or leaves none, so less than the whole budget is left (R101). -/
theorem afterAttempt_ranges (goOn : Bool) {s : State} (bounds : InBounds s)
    (budget : s.slotsLeft ≤ s.cfg.cyclesPerTick.val) : Ranges (afterAttempt goOn s) := by
  have positive : 0 < s.cfg.cyclesPerTick.val := s.cfg.cyclesPerTick.property
  rcases afterAttempt_cases goOn s with ⟨-, cut⟩ | ⟨-, more, -, used⟩ | ⟨-, ended⟩
  · rw [cut]
    exact ranges_iff.2 ⟨bounds, positive⟩
  · rw [used]
    exact ranges_iff.2 ⟨bounds, show s.slotsLeft - 1 < s.cfg.cyclesPerTick.val by omega⟩
  · rw [ended]
    exact ranges_iff.2 ⟨bounds, positive⟩

theorem cycle_slotsLeft {s t : State} (h : cycle s = .next t) : t.slotsLeft = s.slotsLeft := by
  rcases cycle_cases h with ⟨_, -, executed⟩ | rfl
  · obtain ⟨-, -, -, -, -, -, slots, -⟩ := exec_untouched executed
    exact slots
  · rfl

@[simp] theorem waitPoll_slotsLeft (s : State) : (waitPoll s).2.slotsLeft = s.slotsLeft := by
  rcases waitPoll_cases s with ⟨_, -, completed⟩ | ⟨-, pending⟩
  · simp [completed]
  · simp [pending]

/-- Settles O45: each thing a step can do keeps the bounds, and every attempt's end the budget. -/
theorem rangesAreKept : Obligations.RangesAreKept := by
  intro s t ranges h
  obtain ⟨bounds, budget⟩ := ranges_iff.1 ranges
  rcases step_cases h with
    ⟨-, rfl⟩ | ⟨-, -, -, rfl⟩ | ⟨-, -, -, -, rfl⟩ | ⟨u, from_s, -, ⟨-, w, ran, rfl⟩ | ⟨-, rfl⟩⟩
  · exact ranges
  · exact ranges_iff.2 ⟨nextPorts_inBounds bounds, by simpa using budget⟩
  · exact ranges_iff.2 ⟨nextPorts_inBounds bounds, by simpa [hostFault] using budget⟩
  · obtain ⟨ubounds, ubudget⟩ := from_s.inBounds ranges
    exact afterAttempt_ranges true (cycle_inBounds ran ubounds) (by rwa [cycle_slotsLeft ran, cycle_cfg ran])
  · obtain ⟨ubounds, ubudget⟩ := from_s.inBounds ranges
    exact afterAttempt_ranges _ (waitPoll_inBounds ubounds) (by simpa using ubudget)

end Sys2Proof.Machine
end

section
/-! SUPPORT. The status, the fault record and the waiting FX0A through every part of a step (10_state.md R36 to R38,
40_execution_cycle.md R99, 45_timers_keys.md R161 and R162). -/

namespace Sys2Proof.Machine

open Sys2Proof.Safety

/-! ### What an instruction and a cycle do to the status and the record -/

/-- Status and fault record are as before. -/
def SameRecord (s t : State) : Prop :=
  t.status = s.status ∧ t.faultKind = s.faultKind ∧ t.faultPc = s.faultPc ∧ t.faultOpcode = s.faultOpcode

/-- FX0A with field `x` has started and waits (R161). -/
def startWait (x : RegIdx) (s : State) : State := { s with waitX := x, kbase := s.keys, status := .waitKey }

/-- An instruction leaves the status and the record alone, starts a wait, or faults with its own word (R161, R204). -/
theorem exec_record_cases {i : Instr} {s t : State} (h : exec i s = .next t) :
    SameRecord s t ∨ (∃ x, i = .ldVxK x ∧ t = startWait x s) ∨
      ∃ kind, (kind = .stackOverflow ∨ kind = .stackUnderflow) ∧ t = raiseFault kind s.pc (encode i) s := by
  cases i
  case call nnn =>
    rcases execCall_cases h with ⟨_, rfl⟩ | ⟨-, rfl⟩
    · exact .inl ⟨rfl, rfl, rfl, rfl⟩
    · exact .inr (.inr ⟨_, .inl rfl, rfl⟩)
  case ret =>
    rcases execRet_cases h with ⟨_, rfl⟩ | ⟨-, rfl⟩
    · exact .inl ⟨rfl, rfl, rfl, rfl⟩
    · exact .inr (.inr ⟨_, .inr rfl, rfl⟩)
  case ldVxK x =>
    cases h
    exact .inr (.inl ⟨x, rfl, rfl⟩)
  all_goals
    cases h
    exact .inl ⟨by simp, by simp, by simp, by simp⟩

/-- A cycle leaves the status and the record alone, starts the wait of the FX0A it fetched, or faults with the word it
fetched (R92, R99, R161). -/
theorem cycle_record_cases {s t : State} (h : cycle s = .next t) :
    SameRecord s t ∨ (∃ x, fetchWord s = encode (.ldVxK x) ∧ t = startWait x s) ∨
      ∃ kind, kind ≠ .none ∧ kind ≠ .hostUnavailable ∧ t = raiseFault kind s.pc (fetchWord s) s := by
  rcases cycle_cases h with ⟨i, decoded, executed⟩ | rfl
  · have word : encode i = fetchWord s := encode_of_decodeWord decoded
    rcases exec_record_cases executed with same | ⟨x, rfl, rfl⟩ | ⟨kind, isStack, rfl⟩
    · exact .inl same
    · exact .inr (.inl ⟨x, word.symm, rfl⟩)
    · rw [word]
      rcases isStack with rfl | rfl <;> exact .inr (.inr ⟨_, by decide, by decide, rfl⟩)
  · exact .inr (.inr ⟨_, by decide, by decide, rfl⟩)

/-! ### The record -/

/-- Outside FAULT the record is right when it is empty (R37). -/
theorem recordOk_iff_of_not_fault {s : State} (h : s.status ≠ .fault) :
    RecordOk s ↔ s.faultKind = .none ∧ s.faultPc = 0 ∧ s.faultOpcode = 0 := by
  simp only [RecordOk, h, false_iff, not_not, false_implies, and_true]
  exact ⟨fun ⟨noKind, empty⟩ => ⟨noKind, empty noKind⟩, fun ⟨noKind, empty⟩ => ⟨noKind, fun _ => empty⟩⟩

/-- A fault's record is right when it holds the fetched word, or 0 for HostUnavailable (R99, R202). -/
theorem recordOk_raiseFault {s : State} {kind : FaultKind} {op : Word} (named : kind ≠ .none)
    (word : op = if kind = .hostUnavailable then 0 else fetchWord s) : RecordOk (raiseFault kind s.pc op s) :=
  ⟨iff_of_true rfl named, fun noKind => absurd noKind named, fun _ => ⟨rfl, word⟩⟩

/-- The record stays right while it, PC and memory are as before and the status stays outside FAULT. -/
theorem recordOk_of_sameRecord {s t : State} (same : SameRecord s t) (running : s.status ≠ .fault) (record : RecordOk s) :
    RecordOk t := by
  obtain ⟨status, kind, pc, opcode⟩ := same
  rw [recordOk_iff_of_not_fault (status ▸ running), kind, pc, opcode]
  exact (recordOk_iff_of_not_fault running).1 record

theorem waitOk_of_ne {s : State} (h : s.status ≠ .waitKey) : WaitOk s := fun waiting => absurd waiting h

/-! ### The parts of a step -/

theorem cycle_recordOk_waitOk {s t : State} (h : cycle s = .next t) (run : s.status = .run) (record : RecordOk s) :
    RecordOk t ∧ WaitOk t := by
  have running : s.status ≠ .fault := by simp [run]
  rcases cycle_record_cases h with same | ⟨x, word, rfl⟩ | ⟨kind, named, notHost, rfl⟩
  · have status : t.status = .run := same.1.trans run
    exact ⟨recordOk_of_sameRecord same running record, waitOk_of_ne (by simp [status])⟩
  · have empty := (recordOk_iff_of_not_fault running).1 record
    exact ⟨(recordOk_iff_of_not_fault (by simp [startWait])).2 empty, fun _ => ⟨word, rfl⟩⟩
  · exact ⟨recordOk_raiseFault named (if_neg notHost).symm, waitOk_of_ne (by simp)⟩

/-- A poll needs only the word of the waiting FX0A: when it keeps waiting it takes Kbase from K itself (R162). -/
theorem waitPoll_recordOk_waitOk {s : State} (waiting : s.status = .waitKey) (record : RecordOk s)
    (word : fetchWord s = encode (.ldVxK s.waitX)) : RecordOk (waitPoll s).2 ∧ WaitOk (waitPoll s).2 := by
  rcases waitPoll_cases s with ⟨k, -, completed⟩ | ⟨-, pending⟩
  · have empty := (recordOk_iff_of_not_fault (by simp [waiting])).1 record
    rw [completed]
    exact ⟨(recordOk_iff_of_not_fault (by simp)).2 empty, waitOk_of_ne (by simp)⟩
  · rw [pending]
    exact ⟨record, fun _ => ⟨word, rfl⟩⟩

theorem afterAttempt_recordOk_waitOk (goOn : Bool) {s : State} (h : RecordOk s ∧ WaitOk s) :
    RecordOk (afterAttempt goOn s) ∧ WaitOk (afterAttempt goOn s) := by
  rcases afterAttempt_cases goOn s with ⟨-, cut⟩ | ⟨-, -, -, used⟩ | ⟨-, ended⟩
  · rw [cut]
    exact h
  · rw [used]
    exact h
  · rw [ended]
    exact h

theorem nextPorts_recordOk {s : State} (record : RecordOk s) : RecordOk (nextPorts s) := by
  rw [nextPorts_unchanged]
  exact record

theorem AttemptFrom.recordOk {s u : State} (h : AttemptFrom s u) (record : RecordOk s) : RecordOk u := by
  rcases h with ⟨rfl, -⟩ | ⟨rfl, -⟩
  · exact record
  · exact nextPorts_recordOk record

/-- Where an attempt starts from, the waiting FX0A is still the word at PC; Kbase may lag behind the K just sampled. -/
theorem AttemptFrom.waitWord {s u : State} (h : AttemptFrom s u) (waiting : s.status = .waitKey) (wait : WaitOk s) :
    fetchWord u = encode (.ldVxK u.waitX) := by
  obtain ⟨word, -⟩ := wait waiting
  rcases h with ⟨rfl, -⟩ | ⟨rfl, -⟩
  · exact word
  · rw [nextPorts_unchanged]
    exact word

/-- Settles O46: a cycle from RUN writes a right record or starts a right wait, a poll keeps both, and the rest of a step
touches neither. -/
theorem recordAndWaitAreKept : Obligations.RecordAndWaitAreKept := by
  intro s t record wait h
  rcases step_cases h with
    ⟨-, rfl⟩ | ⟨running, -, -, rfl⟩ | ⟨-, -, -, -, rfl⟩ | ⟨u, from_s, status, ⟨run, w, ran, rfl⟩ | ⟨waiting, rfl⟩⟩
  · exact ⟨record, wait⟩
  · have notFault : s.status ≠ .fault := (running_iff.1 running).1
    have empty := (recordOk_iff_of_not_fault notFault).1 record
    exact ⟨(recordOk_iff_of_not_fault (by simp)).2 (by simpa using empty), waitOk_of_ne (by simp)⟩
  · exact ⟨recordOk_raiseFault (by decide) rfl, waitOk_of_ne (by simp [hostFault])⟩
  · exact afterAttempt_recordOk_waitOk true (cycle_recordOk_waitOk ran run (from_s.recordOk record))
  · exact afterAttempt_recordOk_waitOk _ (waitPoll_recordOk_waitOk waiting (from_s.recordOk record)
      (from_s.waitWord (status ▸ waiting) wait))

end Sys2Proof.Machine
end

section
/-! SUPPORT. The outputs at tick boundaries, and the invariants at reset (10_state.md R39 and section 8, 45_timers_keys.md
R172, 46_display.md R187). -/

namespace Sys2Proof.Machine

open Sys2Proof.Safety

/-! ### The outputs -/

/-- Only a boundary's shutdown stops the core: no cycle does. -/
theorem cycle_not_stopped {s t : State} (h : cycle s = .next t) (run : s.status = .run) : t.status ≠ .stopped := by
  rcases cycle_record_cases h with ⟨status, -⟩ | ⟨x, -, rfl⟩ | ⟨kind, -, -, rfl⟩
  · simp [status, run]
  · simp [startWait]
  · simp

theorem waitPoll_not_stopped {s : State} (waiting : s.status = .waitKey) : (waitPoll s).2.status ≠ .stopped := by
  rcases waitPoll_cases s with ⟨k, -, completed⟩ | ⟨-, pending⟩
  · simp [completed]
  · simp [pending, waiting]

/-- Steps 3 to 5 publish ST ≠ 0 and G (R172, R187). -/
theorem endTick_outputs (s : State) :
    ((endTick s).soundOn = true ↔ (endTick s).st ≠ 0) ∧ (endTick s).frame = (endTick s).grid :=
  ⟨bne_iff_ne, rfl⟩

/-- However an attempt ends, the outputs are right: a fault cuts the tick short, a slot used leaves the tick under way, and
steps 3 to 5 publish. -/
theorem afterAttempt_outputsOk (goOn : Bool) {s : State} (notStopped : s.status ≠ .stopped) :
    OutputsOk (afterAttempt goOn s) := by
  rcases afterAttempt_cases goOn s with ⟨fault, cut⟩ | ⟨notFault, more, -, used⟩ | ⟨-, ended⟩
  · rw [cut]
    exact ⟨fun _ notFault => absurd fault notFault, fun within => absurd rfl within⟩
  · have slotsLeft : s.slotsLeft - 1 ≠ 0 := by omega
    rw [used]
    exact ⟨fun boundary => absurd boundary slotsLeft, fun _ => running_iff.2 ⟨notFault, notStopped⟩⟩
  · rw [ended]
    exact ⟨fun _ _ => endTick_outputs s, fun within => absurd rfl within⟩

/-- Settles O47: every attempt ends with the outputs right, a stop at a boundary leaves them as they were, and FAULT asks
nothing of them. -/
theorem outputsAreKept : Obligations.OutputsAreKept := by
  intro s t outputs h
  rcases step_cases h with
    ⟨-, rfl⟩ | ⟨running, boundary, -, rfl⟩ | ⟨-, boundary, -, -, rfl⟩ | ⟨u, -, -, ⟨run, w, ran, rfl⟩ | ⟨waiting, rfl⟩⟩
  · exact outputs
  · have notFault : s.status ≠ .fault := (running_iff.1 running).1
    exact ⟨fun _ _ => by simpa using outputs.1 boundary notFault, fun within => absurd (by simpa using boundary) within⟩
  · exact ⟨fun _ notFault => absurd rfl notFault, fun within => absurd (by simpa [hostFault] using boundary) within⟩
  · exact afterAttempt_outputsOk true (cycle_not_stopped ran run)
  · exact afterAttempt_outputsOk _ (waitPoll_not_stopped waiting)

/-! ### Reset -/

/-- Settles O48: PC is 0x200, the stack is empty and holds zeros, memory is canonical, status is RUN, the record is empty,
and the timers and grids are clear. -/
theorem resetMeetsInvariants : Obligations.ResetMeetsInvariants := by
  intro cfg
  have stack : ∀ k (h : k < 16), ((State.resetWith cfg).stack[k]).toNat < 4096 := fun k h => by
    simp [State.resetWith]
  have pc : (0x200 : Word).toNat < 4096 := by decide
  refine ⟨⟨pc, Nat.zero_le 16, stack, resetWith_wf cfg, cfg.cyclesPerTick.property⟩, ?_, ?_, ?_⟩
  · exact (recordOk_iff_of_not_fault (by simp [State.resetWith])).2 ⟨rfl, rfl, rfl⟩
  · exact waitOk_of_ne (by simp [State.resetWith])
  · exact ⟨fun _ _ => ⟨by simp [State.resetWith], rfl⟩, fun within => absurd rfl within⟩

end Sys2Proof.Machine
end

section
/-! SUPPORT. A read after a write, the bytes of the fetched word, the bytes FX33 and FX55 store as a later fetch takes them,
and that no other instruction writes memory (20_memory.md R51 to R53, R58, R60, R63; 40_execution_cycle.md R93). -/

namespace Sys2Proof.Machine

open Sys2Proof.Safety

/-! ### Reads after writes -/

/-- Read after write: the byte written at its address modulo 4096, and the old byte elsewhere (R58, R60). -/
theorem readByte_writeByte {s : State} (wf : Memory.wf s.cfg.font s.mem = true) (a c : Nat) (b : Byte) :
    readByte (writeByte s a b) c = if c % 4096 = a % 4096 then b else readByte s c := by
  split
  · next same => exact readByte_writeByte_self wf b same
  · next other => exact readByte_writeByte_ne b other

/-- Addresses equal modulo 4096 are one address of M (R51). -/
theorem readByte_eq_of_mod_eq (s : State) {a c : Nat} (h : a % 4096 = c % 4096) : readByte s a = readByte s c := by
  rw [← readByte_mod s a, h, readByte_mod]

/-- Settles O58: the write keeps the canonical form and has memory as its only field, and the read is the read after it. -/
theorem readGivesLastWrite : Obligations.ReadGivesLastWrite := fun _ a c b wf =>
  ⟨writeByte_wf a b wf, rfl, readByte_writeByte wf a c b⟩

/-! ### The fetched word -/

theorem wordOfBytes_toNat (hi lo : Byte) : (wordOfBytes hi lo).toNat = 256 * hi.toNat + lo.toNat := by
  rw [wordOfBytes, BitVec.toNat_append, ← Nat.shiftLeft_add_eq_or_of_lt lo.isLt, Nat.shiftLeft_eq, Nat.mul_comm]

theorem wordOfBytes_high_low (op : Word) : wordOfBytes (highByte op) (lowByte op) = op :=
  BitVec.extractLsb'_append_extractLsb' (w := 8) (len := 8)

/-- The fetched word is big endian (R53, R93). -/
theorem fetchWord_toNat (s : State) :
    (fetchWord s).toNat = 256 * (readByte s s.pc.toNat).toNat + (readByte s (s.pc.toNat + 1)).toNat :=
  wordOfBytes_toNat _ _

theorem fetchWord_high (s : State) : (fetchWord s).toNat / 256 = (readByte s s.pc.toNat).toNat := by
  have low := (readByte s (s.pc.toNat + 1)).isLt
  rw [fetchWord_toNat]
  omega

theorem fetchWord_low (s : State) : (fetchWord s).toNat % 256 = (readByte s (s.pc.toNat + 1)).toNat := by
  have low := (readByte s (s.pc.toNat + 1)).isLt
  rw [fetchWord_toNat]
  omega

/-- A run of writes has memory as its only field. -/
theorem writeBytes_mem_restored (s : State) (a : Nat) (bs : List Byte) : { writeBytes s a bs with mem := s.mem } = s := by
  rw [writeBytes_unchanged]

/-- A word placed at PC is the word fetched (R93). -/
theorem fetchWord_placeAtPc {s : State} (wf : Memory.wf s.cfg.font s.mem = true) (op : Word) :
    fetchWord (placeAtPc s op) = op := by
  have placed : ∀ k (h : k < 2), readByte (placeAtPc s op) (s.pc.toNat + k) = [highByte op, lowByte op][k] := fun k h =>
    readByte_writeBytes_inside (bs := [highByte op, lowByte op]) wf (by simp) h
  have samePc : (placeAtPc s op).pc = s.pc := writeBytes_pc s _ _
  calc fetchWord (placeAtPc s op)
    _ = wordOfBytes (highByte op) (lowByte op) := by
      rw [fetchWord, samePc]
      exact congrArg₂ wordOfBytes (placed 0 (by decide)) (placed 1 (by decide))
    _ = op := wordOfBytes_high_low op

/-- Any address but the two a placed word covers reads as before. -/
theorem readByte_placeAtPc_ne {s : State} (op : Word) {a : Nat} (notHigh : a % 4096 ≠ s.pc.toNat % 4096)
    (notLow : a % 4096 ≠ (s.pc.toNat + 1) % 4096) : readByte (placeAtPc s op) a = readByte s a := by
  refine readByte_writeBytes_outside fun k h => ?_
  match k, h with
  | 0, _ => exact notHigh
  | 1, _ => exact notLow

/-- Settles O40: the word is its two bytes, high byte first, and placing a word writes those two bytes. -/
theorem fetchIsBigEndian : Obligations.FetchIsBigEndian := by
  refine fun s op => ⟨?_, fun wf => ⟨fetchWord_placeAtPc wf op, writeBytes_mem_restored s _ _, fun a =>
    readByte_placeAtPc_ne op⟩⟩
  rw [fetchWord_toNat, readByte_mod]

/-! ### The two stores -/

/-- FX55 leaves V[r] at I + r, for each r up to X (R154). -/
theorem readByte_of_storeRegs {x r : RegIdx} {s t : State} (wf : Memory.wf s.cfg.font s.mem = true)
    (h : exec (.storeRegs x) s = .next t) (upToX : r.toNat ≤ x.toNat) :
    readByte t (s.index.toNat + r.toNat) = getV s r := by
  have stored : r.toNat < (regsUpTo s x).length := by simpa using Nat.lt_succ_of_le upToX
  have short : (regsUpTo s x).length ≤ 4096 := by
    have := x.isLt
    rw [regsUpTo_length]
    omega
  cases h
  rw [readByte_setIndex, indexAddr_eq, readByte_writeBytes_inside (s := advance s) wf short stored, regsUpTo_getElem,
    BitVec.ofNat_toNat, BitVec.setWidth_eq]

/-- The k-th decimal digit of a byte, hundreds first (R153). -/
theorem decimalDigits_getElem_toNat (b : Byte) {k : Nat} (h : k < (decimalDigits b).length) :
    ((decimalDigits b)[k]).toNat = b.toNat / 10 ^ (2 - k) % 10 := by
  have := b.isLt
  match k, h with
  | 0, _ | 1, _ | 2, _ => simp [decimalDigits]; omega

/-- FX33 leaves the k-th decimal digit of V[X] at I + k (R153). -/
theorem readByte_of_ldB {x : RegIdx} {s t : State} (wf : Memory.wf s.cfg.font s.mem = true)
    (h : exec (.ldB x) s = .next t) {k : Nat} (hk : k < 3) :
    (readByte t (s.index.toNat + k)).toNat = (getV s x).toNat / 10 ^ (2 - k) % 10 := by
  have stored : k < (decimalDigits (getV s x)).length := hk
  have short : (decimalDigits (getV s x)).length ≤ 4096 := by simp [decimalDigits]
  cases h
  rw [indexAddr_eq, readByte_writeBytes_inside (s := advance s) wf short stored, decimalDigits_getElem_toNat]

/-- The byte that `t` holds at PC is the high byte of the word fetched in a state with the memory of `t` (R63). -/
theorem fetchWord_high_of_memSame {t u : State} (same : MemSame t u) {a : Nat} (h : u.pc.toNat % 4096 = a % 4096) :
    (fetchWord u).toNat / 256 = (readByte t a).toNat := by
  rw [fetchWord_high, same, readByte_eq_of_mod_eq t h]

/-- The byte that `t` holds at PC + 1 is the low byte of the word fetched in a state with the memory of `t` (R63). -/
theorem fetchWord_low_of_memSame {t u : State} (same : MemSame t u) {a : Nat}
    (h : (u.pc.toNat + 1) % 4096 = a % 4096) : (fetchWord u).toNat % 256 = (readByte t a).toNat := by
  rw [fetchWord_low, same, readByte_eq_of_mod_eq t h]

/-- Settles O60: each stored byte is read back at its address, and a fetch is the reads at PC and PC + 1. -/
theorem storedBytesAreFetched : Obligations.StoredBytesAreFetched := by
  refine fun x s t u wf same => ⟨fun h r upToX => ?_, fun h k hk => ?_⟩
  · rw [← readByte_of_storeRegs wf h upToX]
    exact ⟨fetchWord_high_of_memSame same, fetchWord_low_of_memSame same⟩
  · rw [← readByte_of_ldB wf h hk]
    exact ⟨fetchWord_high_of_memSame same, fetchWord_low_of_memSame same⟩

/-! ### Every other instruction -/

/-- CALL and RET leave M alone with and without a fault, and no other update but those of FX33 and FX55 has M among its
fields (R52). -/
theorem exec_mem {i : Instr} {s t : State} (h : exec i s = .next t) (notLdB : ∀ x, i ≠ .ldB x)
    (notStore : ∀ x, i ≠ .storeRegs x) : t.mem = s.mem := by
  cases i
  case ldB x => exact absurd rfl (notLdB x)
  case storeRegs x => exact absurd rfl (notStore x)
  case call nnn => rcases execCall_cases h with ⟨_, rfl⟩ | ⟨_, rfl⟩ <;> rfl
  case ret => rcases execRet_cases h with ⟨_, rfl⟩ | ⟨_, rfl⟩ <;> rfl
  all_goals
    cases h
    simp

/-- Settles O51: the list is the same, and with the same font so is every read. -/
theorem memoryChangesOnlyByStores : Obligations.MemoryChangesOnlyByStores := by
  intro i s t h notLdB notStore
  have mem : t.mem = s.mem := exec_mem h notLdB notStore
  exact ⟨mem, readByte_congr mem (exec_untouched h).1⟩

end Sys2Proof.Machine
end

section
/-! SUPPORT. Decoding and encoding are inverse to each other, and the words that decode to nothing are the five illegal
sets (30_encoding.md R70 to R78). -/

namespace Sys2Proof

open Sys2Proof.Machine

/-! ### The fields of the formats with a register (R71, R72) -/

theorem formXNN_eq_formNNN (n1 : Nibble) (x : RegIdx) (nn : Byte) : formXNN n1 x nn = formNNN n1 (x ++ nn) :=
  BitVec.append_assoc

theorem formXYN_eq_formXNN (n1 : Nibble) (x y : RegIdx) (n : Nibble) : formXYN n1 x y n = formXNN n1 x (y ++ n) :=
  BitVec.append_assoc

@[simp] theorem fieldN1_formXNN (n1 : Nibble) (x : RegIdx) (nn : Byte) : fieldN1 (formXNN n1 x nn) = n1 := by
  rw [formXNN_eq_formNNN, fieldN1_formNNN]

@[simp] theorem fieldX_formXNN (n1 : Nibble) (x : RegIdx) (nn : Byte) : fieldX (formXNN n1 x nn) = x := by
  rw [fieldX, formXNN, BitVec.extractLsb'_append_eq_of_le (by decide)]
  exact BitVec.extractLsb'_append_eq_right

@[simp] theorem fieldNN_formXNN (n1 : Nibble) (x : RegIdx) (nn : Byte) : fieldNN (formXNN n1 x nn) = nn :=
  BitVec.extractLsb'_append_eq_right

@[simp] theorem fieldN1_formXYN (n1 : Nibble) (x y : RegIdx) (n : Nibble) : fieldN1 (formXYN n1 x y n) = n1 := by
  rw [formXYN_eq_formXNN, fieldN1_formXNN]

@[simp] theorem fieldX_formXYN (n1 : Nibble) (x y : RegIdx) (n : Nibble) : fieldX (formXYN n1 x y n) = x := by
  rw [formXYN_eq_formXNN, fieldX_formXNN]

@[simp] theorem fieldY_formXYN (n1 : Nibble) (x y : RegIdx) (n : Nibble) : fieldY (formXYN n1 x y n) = y := by
  rw [fieldY, formXYN, BitVec.extractLsb'_append_eq_of_le (by decide)]
  exact BitVec.extractLsb'_append_eq_right

@[simp] theorem fieldN_formXYN (n1 : Nibble) (x y : RegIdx) (n : Nibble) : fieldN (formXYN n1 x y n) = n :=
  BitVec.extractLsb'_append_eq_right

/-! ### Decoding what was encoded -/

/-- SYS takes every operand but those of the words of CLS and RET (R75). -/
theorem wf_sys {nnn : Addr} : (Instr.sys nnn).wf = true ↔ nnn ≠ 0x0E0 ∧ nnn ≠ 0x0EE := by
  simp [Instr.wf]

theorem formNNN_inj {n1 : Nibble} {a b : Addr} : formNNN n1 a = formNNN n1 b ↔ a = b :=
  ⟨fun same => by simpa using congrArg fieldNNN same, congrArg _⟩

theorem decode0_formNNN {nnn : Addr} (wf : (Instr.sys nnn).wf = true) : decode0 (formNNN 0x0 nnn) = .sys nnn := by
  obtain ⟨notCls, notRet⟩ := wf_sys.1 wf
  have word_ne_cls : formNNN 0x0 nnn ≠ 0x00E0 := mt (formNNN_inj (b := 0x0E0)).1 notCls
  have word_ne_ret : formNNN 0x0 nnn ≠ 0x00EE := mt (formNNN_inj (b := 0x0EE)).1 notRet
  rw [decode0, if_neg word_ne_cls, if_neg word_ne_ret, fieldNNN_formNNN]

/-- The decoder reads an encoded word's group, its function code where it has one, and its operands (R74). -/
theorem decodeWord_encode {i : Instr} (wf : i.wf = true) : decodeWord (encode i) = .ok i := by
  cases i
  case sys nnn =>
    rw [encode, decodeWord, fieldN1_formNNN, decode0_formNNN wf]
    rfl
  case cls | ret => rfl
  all_goals simp [encode, decodeWord, decode8, decodeE, decodeF]

/-- A word's two bytes are decoded as the word, whatever follows them (R53, R70). -/
theorem decode_high_low {op : Word} {i : Instr} (h : decodeWord op = .ok i) (rest : List Byte) :
    decode (highByte op :: lowByte op :: rest) = .ok (i, rest) := by
  rw [decode, wordOfBytes_high_low, h]

/-- Settles O2: the two bytes make the word again, and the word decodes to its instruction. -/
theorem decodeInvertsEncode : Obligations.DecodeInvertsEncode := fun _ rest wf =>
  decode_high_low (decodeWord_encode wf) rest

/-! ### What was decoded is well formed -/

/-- The words of CLS and RET are taken before SYS (R75). -/
theorem wf_of_decodeWord {op : Word} {i : Instr} (h : decodeWord op = .ok i) : i.wf = true := by
  cases i
  case sys nnn =>
    have decoded : decodeWord (formNNN 0x0 nnn) = .ok (.sys nnn) := by rwa [← encode_of_decodeWord h] at h
    refine wf_sys.2 ⟨?notCls, ?notRet⟩ <;> rintro rfl <;> cases decoded
  all_goals rfl

/-- Settles O3: SYS never takes the words of CLS and RET, and the operands' fields put the word together again. -/
theorem encodeInvertsDecode : Obligations.EncodeInvertsDecode := fun _ _ h =>
  ⟨wf_of_decodeWord h, encode_of_decodeWord h⟩

/-! ### The illegal words (R76) -/

theorem fieldN1_toNat (op : Word) : (fieldN1 op).toNat = op.toNat / 4096 := by
  rw [fieldN1, BitVec.extractLsb'_toNat, Nat.shiftRight_eq_div_pow]
  exact Nat.mod_eq_of_lt (by omega)

theorem fieldN_toNat (op : Word) : (fieldN op).toNat = op.toNat % 16 := BitVec.extractLsb'_toNat 0 4 op

theorem fieldNN_toNat (op : Word) : (fieldNN op).toNat = op.toNat % 256 := BitVec.extractLsb'_toNat 0 8 op

/-- A guard that answers lets an error through only where it fails. -/
theorem exists_error_ite {c : Prop} [Decidable c] {i : Instr} {r : Except DecodeReject Instr} :
    (∃ e, (if c then .ok i else r) = .error e) ↔ ¬c ∧ ∃ e, r = .error e := by
  split_ifs with h <;> simp [h]

theorem decode8_error_iff (op : Word) :
    (∃ e, decode8 op = .error e) ↔ (fieldN op).toNat ∈ [0x8, 0x9, 0xA, 0xB, 0xC, 0xD, 0xF] := by
  unfold decode8
  split
  case h_10 =>
    have bound : (fieldN op).toNat < 16 := (fieldN op).isLt
    have illegal : (fieldN op).toNat ∈ [0x8, 0x9, 0xA, 0xB, 0xC, 0xD, 0xF] := by
      simp only [List.mem_cons, List.not_mem_nil, or_false]
      grind
    exact iff_of_true ⟨_, rfl⟩ illegal
  all_goals
    next code => simp [code]

theorem decodeE_error_iff (op : Word) : (∃ e, decodeE op = .error e) ↔ (fieldNN op).toNat ∉ [0x9E, 0xA1] := by
  simp [decodeE, exists_error_ite, BitVec.toNat_eq]

theorem decodeF_error_iff (op : Word) :
    (∃ e, decodeF op = .error e) ↔ (fieldNN op).toNat ∉ [0x07, 0x0A, 0x15, 0x18, 0x1E, 0x29, 0x33, 0x55, 0x65] := by
  simp [decodeF, exists_error_ite, BitVec.toNat_eq]

/-- Settles O4: five groups can reject, each the words of its own set, and every word of the other eleven decodes. -/
theorem illegalWordsAreExactlyTheListedOnes : Obligations.IllegalWordsAreExactlyTheListedOnes := by
  intro op
  rw [← fieldN1_toNat, ← fieldN_toNat, ← fieldNN_toNat]
  unfold decodeWord
  split
  case h_6 group | h_10 group => simp [group, exists_error_ite, BitVec.toNat_eq]
  case h_9 group => simpa [group] using decode8_error_iff op
  case h_15 group => simpa [group] using decodeE_error_iff op
  case h_16 =>
    have bound : (fieldN1 op).toNat < 16 := (fieldN1 op).isLt
    have group : (fieldN1 op).toNat = 0xF := by grind
    simpa [group] using decodeF_error_iff op
  all_goals
    next group => simp [group]

/-! ### Words of the table -/

/-- Settles O1: the decoder computes each answer. -/
theorem tableWordsDecode : Obligations.TableWordsDecode :=
  ⟨rfl, rfl, rfl, rfl, rfl, rfl, rfl, rfl, rfl, rfl, rfl, rfl, rfl, rfl⟩

end Sys2Proof
end

section
/-! SUPPORT. The parts of a step one at a time: the cycle of a decoded and of an illegal word, an attempt, its end, and
the beginning of a tick; and what each part does to K (40_execution_cycle.md R90 to R103, 60_exceptions.md R201 to
R210). -/

namespace Sys2Proof.Machine

open Sys2Proof.Safety

/-! ### One attempt and its end -/

/-- Two bytes at PC that decode make the cycle the decoded instruction (R92). -/
theorem cycle_of_decode {s : State} {i : Instr} {rest : List Byte}
    (decoded : decode [readByte s s.pc.toNat, readByte s (s.pc.toNat + 1)] = .ok (i, rest)) : cycle s = exec i s := by
  rw [cycle, decoded]

/-- An illegal word faults where it stands (R92, R203). -/
theorem cycle_of_illegal {s : State} {e : DecodeReject} (illegal : decodeWord (fetchWord s) = .error e) :
    cycle s = .next (Faulted s .illegalInstruction (fetchWord s)) := by
  rw [cycle_eq, illegal]
  rfl

theorem attempt_of_run {s : State} (run : s.status = .run) :
    attempt s = Result.andThen (cycle s) fun t => .next (afterAttempt true t) := by
  rw [attempt, run]

theorem attempt_of_waitKey {s : State} (waiting : s.status = .waitKey) :
    attempt s = .next (afterAttempt (waitPoll s).1 (waitPoll s).2) := by
  rw [attempt, waiting]

/-- A fault ends the tick at once, without countdown, sound or frame (R99). -/
theorem afterAttempt_of_fault (goOn : Bool) {s : State} (fault : s.status = .fault) :
    afterAttempt goOn s = { s with slotsLeft := 0 } :=
  if_pos fault

/-- An unsuccessful poll ends step 2 (R101). -/
theorem afterAttempt_of_failed_poll {s : State} (notFault : s.status ≠ .fault) : afterAttempt false s = endTick s := by
  simp [afterAttempt, notFault]

/-- The budget's last slot ends step 2 (R101). -/
theorem afterAttempt_of_last_slot (goOn : Bool) {s : State} (notFault : s.status ≠ .fault) (last : s.slotsLeft = 1) :
    afterAttempt goOn s = endTick s := by
  simp [afterAttempt, notFault, last]

/-- With more slots ahead one is used (R101). -/
theorem afterAttempt_of_more_slots {s : State} (notFault : s.status ≠ .fault) (more : 1 < s.slotsLeft) :
    afterAttempt true s = { s with slotsLeft := s.slotsLeft - 1 } := by
  simp [afterAttempt, notFault, more]

/-- A cycle in RUN that ends in FAULT is the whole attempt, and the tick's end (R99). -/
theorem attempt_of_faulting_cycle {s t : State} (run : s.status = .run) (ran : cycle s = .next t)
    (fault : t.status = .fault) : attempt s = .next { t with slotsLeft := 0 } := by
  rw [attempt_of_run run, ran, andThen_next, afterAttempt_of_fault true fault]

/-! ### Steps 3 to 5, field by field -/

/-- Everything steps 3 to 5 change: the timers, the two outputs, and the slot count. -/
theorem endTick_eq (s : State) : endTick s = { s with
    dt := countDown s.dt, st := countDown s.st, soundOn := countDown s.st != 0, frame := s.grid, slotsLeft := 0 } := rfl

@[simp] theorem endTick_v (s : State) : (endTick s).v = s.v := by
  rw [endTick_eq]
@[simp] theorem endTick_pc (s : State) : (endTick s).pc = s.pc := by
  rw [endTick_eq]
@[simp] theorem endTick_dt (s : State) : (endTick s).dt = countDown s.dt := by
  rw [endTick_eq]
@[simp] theorem endTick_st (s : State) : (endTick s).st = countDown s.st := by
  rw [endTick_eq]
@[simp] theorem endTick_keys (s : State) : (endTick s).keys = s.keys := by
  rw [endTick_eq]
@[simp] theorem endTick_status (s : State) : (endTick s).status = s.status := by
  rw [endTick_eq]
@[simp] theorem endTick_slotsLeft (s : State) : (endTick s).slotsLeft = 0 := by
  rw [endTick_eq]

/-! ### The beginning of a tick -/

@[simp] theorem openTick_status (s : State) : (openTick s).status = s.status := rfl

@[simp] theorem openTick_keys (s : State) : (openTick s).keys = s.ports.keys := rfl

theorem startTick_of_shutdown {s : State} (shutdown : (nextPorts s).ports.shutdown = true) :
    startTick s = .next { nextPorts s with status := .stopped } :=
  if_pos shutdown

theorem startTick_of_hostFault {s : State} (noShutdown : (nextPorts s).ports.shutdown = false)
    (down : (nextPorts s).ports.hostFault = true) : startTick s = .next (hostFault (nextPorts s)) := by
  simp [startTick, noShutdown, down]

theorem startTick_of_clear {s : State} (noShutdown : (nextPorts s).ports.shutdown = false)
    (noHostFault : (nextPorts s).ports.hostFault = false) : startTick s = attempt (openTick (nextPorts s)) := by
  simp [startTick, noShutdown, noHostFault]

/-- With no shutdown and no host_fault the step at a boundary is the first attempt of the tick it opens (R90). -/
theorem step_of_clear_boundary {s : State} (boundary : s.slotsLeft = 0)
    (running : s.status = .run ∨ s.status = .waitKey) (noShutdown : (nextPorts s).ports.shutdown = false)
    (noHostFault : (nextPorts s).ports.hostFault = false) : step s = attempt (openTick (nextPorts s)) :=
  (step_of_boundary boundary running).trans (startTick_of_clear noShutdown noHostFault)

/-- The opened tick fetches the word the boundary would (R93). -/
@[simp] theorem fetchWord_openTick_nextPorts (s : State) : fetchWord (openTick (nextPorts s)) = fetchWord s := by
  rw [nextPorts_unchanged]
  rfl

/-! ### The step by its parts -/

/-- Settles O35: the attempt in RUN is the cycle and its end, and the cycle is the decoded instruction. -/
theorem stepRunsDecodedInstruction : Obligations.StepRunsDecodedInstruction := by
  refine fun s i rest run decoded => ⟨fun within => ?_, fun boundary noShutdown noHostFault => ?_⟩
  · rw [step_of_mid within, attempt_of_run run, cycle_of_decode decoded]
  · have opened : decode [readByte (openTick (nextPorts s)) (openTick (nextPorts s)).pc.toNat,
        readByte (openTick (nextPorts s)) ((openTick (nextPorts s)).pc.toNat + 1)] = .ok (i, rest) := by
      rw [nextPorts_unchanged]
      exact decoded
    rw [step_of_clear_boundary boundary (.inl run) noShutdown noHostFault, attempt_of_run (by simpa using run),
      cycle_of_decode opened]

/-- Settles O36: the attempt in WAIT_KEY is the poll and its end. -/
theorem waitingStepOnlyPolls : Obligations.WaitingStepOnlyPolls := by
  refine fun s waiting => ⟨fun within => ?_, fun boundary noShutdown noHostFault => ?_⟩
  · rw [step_of_mid within, attempt_of_waitKey waiting]
  · rw [step_of_clear_boundary boundary (.inr waiting) noShutdown noHostFault, attempt_of_waitKey (by simpa using waiting)]

/-- Settles O41: a step leaves the final states alone. -/
theorem faultAndStoppedAreFinal : Obligations.FaultAndStoppedAreFinal := fun _ => step_of_frozen

/-- Settles O42: the beginning of a tick looks at shutdown, then at host_fault, before it samples K. -/
theorem shutdownAndHostFaultAtBoundary : Obligations.ShutdownAndHostFaultAtBoundary := by
  refine fun s running boundary => ⟨fun shutdown => ?_, fun noShutdown down => ?_, ?_⟩
  · rw [step_of_boundary boundary running, startTick_of_shutdown shutdown]
  · rw [step_of_boundary boundary running, startTick_of_hostFault noShutdown down]
    rfl
  · rw [nextPorts_unchanged]

/-! ### Faults -/

/-- Settles O38: the illegal word's cycle is the fault, and the faulting cycle is the whole attempt. -/
theorem illegalWordFaults : Obligations.IllegalWordFaults := by
  refine fun s e illegal => ⟨cycle_of_illegal illegal, fun run within => ?_,
    fun run boundary noShutdown noHostFault => ?_⟩
  · rw [step_of_mid within, attempt_of_faulting_cycle run (cycle_of_illegal illegal) rfl]
  · have opened : decodeWord (fetchWord (openTick (nextPorts s))) = .error e := by
      rwa [fetchWord_openTick_nextPorts]
    rw [step_of_clear_boundary boundary (.inl run) noShutdown noHostFault,
      attempt_of_faulting_cycle (by simpa using run) (cycle_of_illegal opened) rfl, fetchWord_openTick_nextPorts]

/-- A cycle from RUN to FAULT is the fault of an illegal word, or that of CALL or RET by its own word: only the status and
the record change (R99, R201, R203, R204). -/
theorem cycle_faulted {s t : State} (run : s.status = .run) (ran : cycle s = .next t) (fault : t.status = .fault) :
    ∃ kind ∈ [FaultKind.illegalInstruction, .stackOverflow, .stackUnderflow], t = Faulted s kind (fetchWord s) ∧
      (kind = .illegalInstruction ↔ ∃ e, decodeWord (fetchWord s) = .error e) := by
  cases decoded : decodeWord (fetchWord s) with
  | error e =>
    rw [cycle_of_illegal decoded] at ran
    cases ran
    exact ⟨_, by simp, rfl, by simp⟩
  | ok i =>
    rw [cycle_eq, decoded] at ran
    rcases exec_record_cases ran with ⟨status, -⟩ | ⟨x, -, rfl⟩ | ⟨kind, isStack, rfl⟩
    · simp [status, run] at fault
    · simp [startWait] at fault
    · rw [encode_of_decodeWord decoded]
      rcases isStack with rfl | rfl <;> exact ⟨_, by simp, rfl, by simp⟩

/-- Settles O39: the faulting cycle is precise, and it is the whole attempt, of the tick under way or of the one opened. -/
theorem faultsArePreciseAndEndTheTick : Obligations.FaultsArePreciseAndEndTheTick := by
  refine ⟨fun s t run ran fault => ?_, fun s t run boundary noShutdown noHostFault ran fault => ?_⟩
  · obtain ⟨kind, listed, precise, illegal⟩ := cycle_faulted run ran fault
    have whole := attempt_of_faulting_cycle run ran fault
    exact ⟨kind, listed, precise, illegal, whole, fun within => (step_of_mid within).trans whole⟩
  · have opened : (openTick (nextPorts s)).status = .run := by simpa using run
    obtain ⟨kind, listed, precise, illegal⟩ := cycle_faulted opened ran fault
    have whole := attempt_of_faulting_cycle opened ran fault
    rw [fetchWord_openTick_nextPorts] at precise illegal
    refine ⟨kind, listed, precise, illegal,
      (step_of_clear_boundary boundary (.inl run) noShutdown noHostFault).trans whole, ?_⟩
    rw [precise]
    exact ⟨nextPorts_pc s, nextPorts_dt s, nextPorts_st s, nextPorts_soundOn s, nextPorts_frame s⟩

/-! ### K -/

theorem cycle_keys {s t : State} (h : cycle s = .next t) : t.keys = s.keys := by
  rcases cycle_cases h with ⟨_, -, executed⟩ | rfl
  · obtain ⟨-, -, -, keys, -⟩ := exec_untouched executed
    exact keys
  · rfl

@[simp] theorem waitPoll_keys (s : State) : (waitPoll s).2.keys = s.keys := by
  rcases waitPoll_cases s with ⟨_, -, completed⟩ | ⟨-, pending⟩
  · simp [completed]
  · simp [pending]

@[simp] theorem afterAttempt_keys (goOn : Bool) (s : State) : (afterAttempt goOn s).keys = s.keys := by
  rcases afterAttempt_cases goOn s with ⟨-, cut⟩ | ⟨-, -, -, used⟩ | ⟨-, ended⟩
  · rw [cut]
  · rw [used]
  · rw [ended, endTick_keys]

/-- No attempt writes K (R91). -/
theorem attempt_keys {s t : State} (h : attempt s = .next t) (running : s.status = .run ∨ s.status = .waitKey) :
    t.keys = s.keys := by
  rcases attempt_cases h running with ⟨-, w, ran, rfl⟩ | ⟨-, rfl⟩
  · rw [afterAttempt_keys, cycle_keys ran]
  · rw [afterAttempt_keys, waitPoll_keys]

/-- Settles O44: an attempt keeps K, and only the opening of a tick sets it, to the keys input. -/
theorem keysAreConstantWithinTick : Obligations.KeysAreConstantWithinTick := by
  refine fun s t h => ⟨fun within => ?_, fun boundary running noShutdown noHostFault => ?_⟩
  · by_cases frozen : s.status = .fault ∨ s.status = .stopped
    · rw [step_of_frozen frozen] at h
      cases h
      rfl
    · rw [step_of_mid within] at h
      exact attempt_keys h (running_iff.2 (not_or.1 frozen))
  · rw [step_of_clear_boundary boundary running noShutdown noHostFault] at h
    exact attempt_keys h (by simpa using running)

/-! ### A wait within its first tick, and the tick's end -/

/-- Where Kbase is K itself no key is newly pressed (R162). -/
theorem newKeys_eq_nil {s : State} (sampled : s.kbase = s.keys) : newKeys s = [] :=
  List.eq_nil_iff_forall_not_mem.2 fun k pressed => by simp [mem_newKeys, sampled] at pressed

/-- Settles O37: K is still the Kbase of the wait's start, so the poll fails and ends the tick. -/
theorem keyWaitOutlastsItsTick : Obligations.KeyWaitOutlastsItsTick := by
  intro s waiting wait within
  obtain ⟨-, sampled⟩ := wait waiting
  have pending : waitPoll s = (false, { s with kbase := s.keys }) := by
    rcases waitPoll_cases s with ⟨k, pressed, -⟩ | ⟨-, pending⟩
    · simp [newKeys_eq_nil sampled] at pressed
    · exact pending
  have ended : afterAttempt false { s with kbase := s.keys } = endTick { s with kbase := s.keys } :=
    afterAttempt_of_failed_poll (by simp [waiting])
  have answer : step s = .next (endTick { s with kbase := s.keys }) := by
    rw [step_of_mid within, attempt_of_waitKey waiting, pending, ended]
  exact ⟨_, answer, by simp [waiting]⟩

/-- Settles O30: each timer by the law of one countdown, the outputs by what steps 3 to 5 publish. -/
theorem tickEndCountsAndPublishes : Obligations.TickEndCountsAndPublishes := by
  intro s
  refine ⟨?_, ?_, (endTick_outputs s).1, ?_, ?_⟩
  · rw [endTick_dt, countDown_toNat]
  · rw [endTick_st, countDown_toNat]
  · rw [endTick_eq]
  · rw [endTick_eq]

end Sys2Proof.Machine
end

section
/-! SUPPORT. The PC after every instruction, and SYS, which is that and a pulse (40_execution_cycle.md R95 to R98,
41_flow.md R110). -/

namespace Sys2Proof.Machine

open Sys2Proof.Safety

/-- The level SKP and SKNP test is that of the key Vx's low nibble names (R124, R125). -/
theorem keyDown_lowNibble (s : State) (b : Byte) : keyDown s (lowNibble b) = s.keys.getLsbD (b.toNat % 16) := by
  simp [keyDown, lowNibble]

theorem execCall_pc {nnn : Addr} {s t : State} (h : execCall nnn s = .next t) :
    t.pc.toNat = if s.sp.toNat = 16 then s.pc.toNat else nnn.toNat := by
  rcases execCall_cases h with ⟨room, rfl⟩ | ⟨full, rfl⟩
  · rw [if_neg room.ne, jumpTo_pc, zext16_toNat]
  · simp [full]

theorem execRet_pc {s t : State} (h : execRet s = .next t) :
    t.pc.toNat = if s.sp.toNat = 0 then s.pc.toNat else (s.stack[s.sp.toNat - 1]?.getD 0).toNat := by
  rcases execRet_cases h with ⟨entry, rfl⟩ | ⟨empty, rfl⟩
  · have inStack : s.sp.toNat - 1 < 16 := by omega
    rw [if_neg (by omega), jumpTo_pc, Vector.getElem?_eq_getElem inStack, Option.getD_some]
  · simp [empty]

/-- Settles O54: the transfers and FX0A's start by their own targets, the skips by their predicate, and every other
instruction by the sequential advance. -/
theorem pcAfterEveryInstruction : Obligations.PcAfterEveryInstruction := by
  intro i s t h
  cases i
  case call nnn => exact execCall_pc h
  case ret => exact execRet_pc h
  case jp nnn =>
    cases h
    exact zext16_toNat nnn
  case jpV0 nnn =>
    cases h
    exact setPc_pc_toNat _ _
  case ldVxK x =>
    cases h
    rfl
  case seByte | sneByte | seReg | sneReg | skp =>
    cases h
    refine (skipIf_advance_pc_toNat _ s).trans ?_
    simp [nextPc, keyDown_lowNibble]
  case sknp x =>
    cases h
    refine (skipIf_advance_pc_toNat _ s).trans ?_
    rw [keyDown_lowNibble, nextPc]
    cases s.keys.getLsbD ((getV s x).toNat % 16) <;> rfl
  all_goals
    have samePc : t.pc = (advance s).pc := by
      cases h
      simp
    rw [samePc]
    exact advance_pc_toNat s

/-- Settles O5: the decoder reads back 0NNN, and SYS is the advance and a pulse. -/
theorem sysOnlyAdvances : Obligations.SysOnlyAdvances := by
  intro nnn s
  refine ⟨fun notCls notRet => ?_, _, rfl, ?_, ?_, ?_, fun a => ?_⟩
  · change decodeWord (encode (.sys nnn)) = .ok (.sys nnn)
    exact decodeWord_encode (wf_sys.2 ⟨notCls, notRet⟩)
  · rw [PcAdvanced, pulseSysEvent_pc, advance_pc_toNat]
  · rw [pulseSysEvent_unchanged]
    rfl
  · unfold pulseSysEvent
    rw [advance_cfg]
    split <;> rfl
  · rw [readByte_pulseSysEvent, readByte_advance]

end Sys2Proof.Machine
end

section
/-! SUPPORT. The steps from one tick boundary to the next do what the tick procedure does: the loop of
40_execution_cycle.md R90 against the attempts of the model's step, which count their slots in the state (R101). -/

namespace Sys2Proof.Machine

/-! ### A run that ends as the tick does -/

/-- `k` further steps from an outcome. -/
def runFrom (o : Result) (k : Nat) : Result := Result.andThen o fun t => Host.Core.run Sys2Proof.core k t

@[simp] theorem runFrom_zero (o : Result) : runFrom o 0 = o := by
  cases o <;> rfl

theorem core_run_succ_eq_runFrom (k : Nat) (s : State) : Host.Core.run Sys2Proof.core (k + 1) s = runFrom (step s) k :=
  core_run_succ k s

theorem runFrom_next_succ (u : State) (k : Nat) : runFrom (.next u) (k + 1) = runFrom (step u) k :=
  core_run_succ k u

/-- From the outcome `o`, at most `n` further steps end in the outcome `r`, and none of the states before is at a
boundary. -/
def EndsWithin (n : Nat) (o r : Result) : Prop :=
  ∃ k ≤ n, runFrom o k = r ∧ ∀ j < k, ∃ u, runFrom o j = .next u ∧ u.slotsLeft ≠ 0

theorem EndsWithin.refl (n : Nat) (o : Result) : EndsWithin n o o :=
  ⟨0, Nat.zero_le n, runFrom_zero o, fun j none => absurd none j.not_lt_zero⟩

/-- A state within a tick goes on with one more attempt. -/
theorem EndsWithin.next_of_mid {n : Nat} {u : State} {r : Result} (within : u.slotsLeft ≠ 0)
    (rest : EndsWithin n (attempt u) r) : EndsWithin (n + 1) (.next u) r := by
  obtain ⟨k, bound, ends, mid⟩ := rest
  rw [← step_of_mid within] at ends mid
  refine ⟨k + 1, Nat.succ_le_succ bound, (runFrom_next_succ u k).trans ends, fun j before => ?_⟩
  cases j with
  | zero => exact ⟨u, rfl, within⟩
  | succ j =>
    rw [runFrom_next_succ]
    exact mid j (Nat.lt_of_succ_lt_succ before)

/-! ### One attempt against one turn of the loop -/

/-- What R90 still does after an attempt that ends in `t`: nothing after a fault, the remaining `n` turns when step 2 goes
on, and steps 3 to 5 when a poll has failed. -/
def restOfTick (n : Nat) (goOn : Bool) (t : State) : Result :=
  if t.status = .fault then .next t else if goOn then tickSlots n t else .next (endTick t)

theorem tickSlots_of_run {n : Nat} {s : State} (run : s.status = .run) :
    tickSlots (n + 1) s = Result.andThen (cycle s) (restOfTick n true) := by
  simp only [tickSlots, run]
  rfl

theorem waitPoll_not_fault {s : State} (waiting : s.status = .waitKey) : (waitPoll s).2.status ≠ .fault := by
  rcases waitPoll_cases s with ⟨k, -, completed⟩ | ⟨-, pending⟩
  · simp [completed]
  · simp [pending, waiting]

theorem tickSlots_of_waitKey {n : Nat} {s : State} (waiting : s.status = .waitKey) :
    tickSlots (n + 1) s = restOfTick n (waitPoll s).1 (waitPoll s).2 := by
  rw [restOfTick, if_neg (waitPoll_not_fault waiting)]
  simp only [tickSlots, waiting]

theorem withSlots_slotsLeft (s : State) : s.withSlots s.slotsLeft = s := rfl

/-- Steps 3 to 5 do not look at the slots that are left. -/
theorem endTick_withSlots (n : Nat) (s : State) : endTick (s.withSlots n) = endTick s := by
  rw [endTick_eq, endTick_eq]
  rfl

/-- An attempt with `n + 1` slots and a turn of the loop agree when the attempt's end and the rest of the loop do. -/
theorem attempt_endsWithin_tickSlots {n : Nat} {s : State} (boundary : s.slotsLeft = 0)
    (running : s.status = .run ∨ s.status = .waitKey)
    (rest : ∀ goOn t, t.slotsLeft = 0 → t.status ≠ .stopped →
      EndsWithin n (.next (afterAttempt goOn (t.withSlots (n + 1)))) (restOfTick n goOn t)) :
    EndsWithin n (attempt (s.withSlots (n + 1))) (tickSlots (n + 1) s) := by
  rcases running with run | waiting
  · rw [attempt_of_run (s := s.withSlots (n + 1)) run, cycle_withSlots, tickSlots_of_run run]
    cases ran : cycle s with
    | next t => exact rest true t ((cycle_slotsLeft ran).trans boundary) (cycle_not_stopped ran run)
    | fault r => exact .refl n _
    | refused r => exact .refl n _
  · rw [attempt_of_waitKey (s := s.withSlots (n + 1)) waiting, waitPoll_withSlots, tickSlots_of_waitKey waiting]
    exact rest _ _ ((waitPoll_slotsLeft s).trans boundary) (waitPoll_not_stopped waiting)

/-- The attempt's end and the rest of the loop agree, by induction on the slots that are left. -/
theorem afterAttempt_endsWithin_restOfTick (n : Nat) (goOn : Bool) (t : State) (boundary : t.slotsLeft = 0)
    (notStopped : t.status ≠ .stopped) :
    EndsWithin n (.next (afterAttempt goOn (t.withSlots (n + 1)))) (restOfTick n goOn t) := by
  by_cases fault : t.status = .fault
  · have cut : afterAttempt goOn (t.withSlots (n + 1)) = t := by
      rw [afterAttempt_of_fault goOn (s := t.withSlots (n + 1)) fault]
      exact boundary ▸ withSlots_slotsLeft t
    rw [cut, restOfTick, if_pos fault]
    exact .refl n _
  have notFault : (t.withSlots (n + 1)).status ≠ .fault := fault
  rw [restOfTick, if_neg fault]
  cases goOn with
  | false =>
    rw [afterAttempt_of_failed_poll notFault, endTick_withSlots]
    exact .refl n _
  | true =>
    cases n with
    | zero =>
      rw [afterAttempt_of_last_slot true notFault rfl, endTick_withSlots]
      exact .refl 0 _
    | succ n =>
      have used : afterAttempt true (t.withSlots (n + 2)) = t.withSlots (n + 1) :=
        afterAttempt_of_more_slots notFault (Nat.one_lt_succ_succ n)
      have within : (t.withSlots (n + 1)).slotsLeft ≠ 0 := Nat.succ_ne_zero n
      rw [used]
      exact .next_of_mid within (attempt_endsWithin_tickSlots boundary (running_iff.2 ⟨fault, notStopped⟩)
        (afterAttempt_endsWithin_restOfTick n))

/-! ### The tick -/

theorem tick_of_frozen {s : State} (frozen : s.status = .fault ∨ s.status = .stopped) : tick s = .next s := by
  rcases frozen with fault | stopped
  · rw [tick, fault]
  · rw [tick, stopped]

/-- K takes the keys input of the tick (R91), the only thing step 1 of R90 does. -/
def sampleKeys (t : State) : State := { t with keys := t.ports.keys }

theorem openTick_eq_withSlots (t : State) : openTick t = (sampleKeys t).withSlots t.cfg.cyclesPerTick.val := rfl

/-- The tick procedure in RUN or WAIT_KEY: shutdown, host_fault, or the loop with K sampled (R90). -/
theorem tick_of_running {s : State} (running : s.status = .run ∨ s.status = .waitKey) :
    tick s = if (nextPorts s).ports.shutdown then .next { nextPorts s with status := .stopped }
      else if (nextPorts s).ports.hostFault then .next (hostFault (nextPorts s))
      else tickSlots (nextPorts s).cfg.cyclesPerTick.val (sampleKeys (nextPorts s)) := by
  rcases running with run | waiting
  · rw [tick, run]
    rfl
  · rw [tick, waiting]
    rfl

/-- A step from a boundary and at most one step fewer than the budget after it end as the tick procedure does. -/
theorem step_endsWithin_tick {s : State} (boundary : s.slotsLeft = 0) :
    EndsWithin (s.cfg.cyclesPerTick.val - 1) (step s) (tick s) := by
  by_cases frozen : s.status = .fault ∨ s.status = .stopped
  · rw [step_of_frozen frozen, tick_of_frozen frozen]
    exact .refl _ _
  have running := running_iff.2 (not_or.1 frozen)
  rw [step_of_boundary boundary running, tick_of_running running, startTick]
  dsimp only
  split_ifs
  · exact .refl _ _
  · exact .refl _ _
  · have budget : s.cfg.cyclesPerTick.val - 1 + 1 = (nextPorts s).cfg.cyclesPerTick.val := by
      rw [nextPorts_cfg, Nat.sub_add_cancel s.cfg.cyclesPerTick.property]
    rw [openTick_eq_withSlots, ← budget]
    exact attempt_endsWithin_tickSlots (by simpa [sampleKeys] using boundary) (by simpa [sampleKeys] using running)
      (afterAttempt_endsWithin_restOfTick _)

/-- The loop counts its turns outside the state, so it ends at a boundary when it begins at one. -/
theorem tickSlots_slotsLeft {n : Nat} {s t : State} (boundary : s.slotsLeft = 0) (h : tickSlots n s = .next t) :
    t.slotsLeft = 0 := by
  induction n generalizing s with
  | zero =>
    cases h
    rfl
  | succ n ih =>
    have rest : ∀ {goOn u}, u.slotsLeft = 0 → restOfTick n goOn u = .next t → t.slotsLeft = 0 := by
      intro goOn u ub hu
      unfold restOfTick at hu
      split_ifs at hu
      · cases hu
        exact ub
      · exact ih ub hu
      · cases hu
        rfl
    cases status : s.status with
    | run =>
      rw [tickSlots_of_run status] at h
      obtain ⟨u, ran, hu⟩ := andThen_eq_next h
      exact rest ((cycle_slotsLeft ran).trans boundary) hu
    | waitKey =>
      rw [tickSlots_of_waitKey status] at h
      exact rest ((waitPoll_slotsLeft s).trans boundary) h
    | fault | stopped =>
      simp only [tickSlots, status] at h
      cases h
      exact boundary

theorem tick_slotsLeft {s t : State} (boundary : s.slotsLeft = 0) (h : tick s = .next t) : t.slotsLeft = 0 := by
  have ports : (nextPorts s).slotsLeft = 0 := (nextPorts_slotsLeft s).trans boundary
  by_cases frozen : s.status = .fault ∨ s.status = .stopped
  · rw [tick_of_frozen frozen] at h
    cases h
    exact boundary
  rw [tick_of_running (running_iff.2 (not_or.1 frozen))] at h
  split_ifs at h
  · cases h
    exact ports
  · cases h
    exact ports
  · exact tickSlots_slotsLeft (s := sampleKeys (nextPorts s)) ports h

/-- Settles O43: the first step begins the tick and the steps after it end it as the loop does. -/
theorem stepsMakeTheTick : Obligations.StepsMakeTheTick := by
  intro s boundary
  obtain ⟨k, bound, ends, mid⟩ := step_endsWithin_tick boundary
  have positive : 1 ≤ s.cfg.cyclesPerTick.val := s.cfg.cyclesPerTick.property
  refine ⟨k + 1, Nat.le_add_left 1 k, by omega, (core_run_succ_eq_runFrom k s).trans ends,
    fun t => tick_slotsLeft boundary, fun j first before => ?_⟩
  obtain ⟨j, rfl⟩ := Nat.exists_eq_succ_of_ne_zero (Nat.one_le_iff_ne_zero.1 first)
  obtain ⟨u, reached, within⟩ := mid j (Nat.lt_of_succ_lt_succ before)
  exact ⟨u, (core_run_succ_eq_runFrom j s).trans reached, within⟩

end Sys2Proof.Machine
end

section
/-! SUPPORT. Jumps, which set PC and nothing else, and the return from a call (41_flow.md R112 to R115,
40_execution_cycle.md R104 and R105). -/

namespace Sys2Proof.Machine

open Sys2Proof.Safety

/-! ### RET after CALL -/

/-- The entry a push left on top is the one RET takes off (R104): the jump goes to it, and SP is as before the push. -/
theorem execRet_of_pushed {s u : State} {a : Word} (room : s.sp.toNat < 16)
    (sameStack : u.stack = s.stack.set s.sp.toNat a room) (sameSp : u.sp = s.sp + 1) :
    ∃ w, execRet u = .next w ∧ w.pc = a ∧ w.sp = s.sp := by
  have depth : u.sp.toNat = s.sp.toNat + 1 := by rw [sameSp, sp_succ_toNat room]
  refine ⟨_, execRet_of_entry (by omega), ?pc, ?sp⟩
  case pc => simp [sameStack, depth]
  case sp => simp [sameSp]

/-- Settles O12: with room CALL pushed the advanced PC, and that is the entry RET takes off. -/
theorem callThenReturnComesBack : Obligations.CallThenReturnComesBack := by
  intro nnn s t u room call sameStack sameSp
  obtain ⟨_, rfl⟩ | ⟨full, -⟩ := execCall_cases call
  · obtain ⟨w, ret, pc, sp⟩ := execRet_of_pushed room sameStack sameSp
    exact ⟨w, ret, by rw [pc, advance_pc_toNat], sp⟩
  · exact absurd room (by simp [full])

/-! ### Jumps -/

theorem onlyPc_withPc (s : State) (w : Word) : OnlyPc s { s with pc := w } := ⟨rfl, fun _ => rfl⟩

/-- JP overwrites the advanced PC (R112). -/
theorem execJp_eq (nnn : Addr) (s : State) : execJp nnn s = .next (jumpTo s (zext16 nnn)) := rfl

/-- JP V0 overwrites the advanced PC (R115). -/
theorem execJpV0_eq (nnn : Addr) (s : State) : execJpV0 nnn s = .next (setPc s ((getV s 0).toNat + nnn.toNat)) := rfl

/-- The decoder reads back 1NNN (R74). -/
theorem decodeWord_jp (nnn : Addr) : decodeWord (0x1#4 ++ nnn) = .ok (.jp nnn) := decodeWord_encode (i := .jp nnn) rfl

/-- The decoder reads back BNNN (R74). -/
theorem decodeWord_jpV0 (nnn : Addr) : decodeWord (0xB#4 ++ nnn) = .ok (.jpV0 nnn) :=
  decodeWord_encode (i := .jpV0 nnn) rfl

/-- Settles O6: JP's next state is the same machine at NNN. -/
theorem jumpSetsPc : Obligations.JumpSetsPc := fun nnn s =>
  ⟨decodeWord_jp nnn, _, execJp_eq nnn s, zext16_toNat nnn, onlyPc_withPc s _⟩

/-- Settles O7: JP V0's next state is the same machine at the reduced sum. -/
theorem jumpV0AddsV0 : Obligations.JumpV0AddsV0 := fun nnn s =>
  ⟨decodeWord_jpV0 nnn, _, execJpV0_eq nnn s, setPc_pc_toNat s _, onlyPc_withPc s _⟩

/-- Settles O8: the fetched JP writes into PC the address PC already holds. -/
theorem jumpToItselfChangesNothing : Obligations.JumpToItselfChangesNothing := by
  intro nnn s here word
  have target : zext16 nnn = s.pc := BitVec.eq_of_toNat_eq ((zext16_toNat nnn).trans here.symm)
  calc cycle s
    _ = execJp nnn s := by rw [cycle_eq, word, decodeWord_jp]; rfl
    _ = .next (jumpTo s s.pc) := by rw [execJp_eq, target]
    _ = .next s := rfl

end Sys2Proof.Machine
end

section
/-! SUPPORT. Skips, which take PC over one word or over two and change nothing else (42_skip.md R120 to R125,
40_execution_cycle.md R97). -/

namespace Sys2Proof.Machine

open Sys2Proof.Safety

/-! ### What a skip does by its predicate -/

theorem onlyPc_skipIf_advance (c : Bool) (s : State) : OnlyPc s (skipIf c (advance s)) := by
  cases c <;> exact onlyPc_withPc s _

/-- A skip whose test says that `P` holds: over two words when `P` holds, over one when not. -/
theorem skip_when {P : Prop} [Decidable P] {c : Bool} (test : c = true ↔ P) (s : State) :
    ∃ t, (.next (skipIf c (advance s)) : Result) = .next t ∧ OnlyPc s t ∧
      t.pc.toNat = (s.pc.toNat + if P then 4 else 2) % 4096 := by
  refine ⟨_, rfl, onlyPc_skipIf_advance c s, ?_⟩
  rw [skipIf_advance_pc_toNat, if_congr test rfl rfl]
  split_ifs <;> rfl

/-- A skip whose test says that `P` fails: over one word when `P` holds, over two when not. -/
theorem skip_unless {P : Prop} [Decidable P] {c : Bool} (test : c = true ↔ ¬P) (s : State) :
    ∃ t, (.next (skipIf c (advance s)) : Result) = .next t ∧ OnlyPc s t ∧
      t.pc.toNat = (s.pc.toNat + if P then 2 else 4) % 4096 := by
  simpa only [ite_not] using skip_when test s

/-! ### The predicates -/

theorem byte_beq_iff {a b : Byte} : (a == b) = true ↔ a.toNat = b.toNat :=
  beq_iff_eq.trans BitVec.toNat_inj.symm

theorem byte_bne_iff {a b : Byte} : (a != b) = true ↔ ¬a.toNat = b.toNat :=
  bne_iff_ne.trans (not_congr BitVec.toNat_inj.symm)

theorem keyDown_iff (s : State) (b : Byte) :
    keyDown s (lowNibble b) = true ↔ s.keys.getLsbD (b.toNat % 16) = true := by
  rw [keyDown_lowNibble]

theorem keyUp_iff (s : State) (b : Byte) :
    (!keyDown s (lowNibble b)) = true ↔ ¬s.keys.getLsbD (b.toNat % 16) = true := by
  rw [keyDown_lowNibble, Bool.not_eq_true', Bool.not_eq_true]

/-! ### The illegal words beside 5XY0 and 9XY0 (R76) -/

theorem decodeWord_illegal5 (x y : RegIdx) {n : Nibble} (h : n ≠ 0) :
    decodeWord (formXYN 0x5 x y n) = .error .illegal5 := by
  simpa [decodeWord] using h

theorem decodeWord_illegal9 (x y : RegIdx) {n : Nibble} (h : n ≠ 0) :
    decodeWord (formXYN 0x9 x y n) = .error .illegal9 := by
  simpa [decodeWord] using h

/-! ### The skip instructions -/

/-- Settles O13: the words are the encodings, and the byte is compared by value. -/
theorem skipComparesByte : Obligations.SkipComparesByte := fun x nn s =>
  ⟨decodeWord_encode (i := .seByte x nn) rfl, decodeWord_encode (i := .sneByte x nn) rfl,
    skip_when byte_beq_iff s, skip_unless byte_bne_iff s⟩

/-- Settles O14: the words are the encodings, another last nibble has no function, and the registers are compared by
value. -/
theorem skipComparesRegister : Obligations.SkipComparesRegister := fun x y s =>
  ⟨decodeWord_encode (i := .seReg x y) rfl, decodeWord_encode (i := .sneReg x y) rfl,
    fun _ h => ⟨decodeWord_illegal5 x y h, decodeWord_illegal9 x y h⟩,
    skip_when byte_beq_iff s, skip_unless byte_bne_iff s⟩

/-- Settles O15: the words are the encodings, and the test reads the sampled level of the key in the low nibble. -/
theorem skipTestsKey : Obligations.SkipTestsKey := fun x s =>
  ⟨decodeWord_encode (i := .skp x) rfl, decodeWord_encode (i := .sknp x) rfl,
    skip_when (keyDown_iff s _) s, skip_unless (keyUp_iff s _) s⟩

end Sys2Proof.Machine
end

section
/-! SUPPORT. The ALU instructions, which advance PC and write Vx, or Vx and VF in the order of R130
(43_alu.md R130 to R145). -/

namespace Sys2Proof.Machine

open Sys2Proof.Safety

/-! ### What the writes leave alone -/

theorem onlyRegs_setV_advance (s : State) (x : RegIdx) (b : Byte) : OnlyRegs s (setV (advance s) x b) [x] :=
  ⟨advance_pc_toNat s, rfl, fun _ other => getV_setV_ne _ b (mt List.mem_singleton.2 other), fun _ => rfl⟩

theorem onlyRegs_writeFlagResult_advance (s : State) (x : RegIdx) (f : FlagResult) :
    OnlyRegs s (writeFlagResult (advance s) x f) [x, 0xF] := by
  refine ⟨?pc, ?rest, fun r other => ?regs, fun a => readByte_writeFlagResult _ x f a⟩
  case pc => rw [PcAdvanced, writeFlagResult_pc, advance_pc_toNat]
  case rest =>
    rw [writeFlagResult_unchanged]
    rfl
  case regs =>
    obtain ⟨notVx, notVf⟩ : r ≠ x ∧ r ≠ 0xF := by simpa using other
    rw [getV_writeFlagResult, if_neg (fun both => notVf both.1), if_neg notVx, getV_advance]

/-- The two writes of R130 after the advance, with the flag and the result as numbers. -/
theorem flagAndResult_writeFlagResult (s : State) (x : RegIdx) {f : FlagResult} {flag result : Nat}
    (hflag : (boolByte f.flag).toNat = flag) (hresult : f.result.toNat = result) :
    FlagAndResult s (writeFlagResult (advance s) x f) x flag result := by
  refine ⟨fun notVf => ⟨?flag, ?result⟩, fun isVf => ?order, onlyRegs_writeFlagResult_advance s x f⟩
  case flag => rw [getV_writeFlagResult, if_pos ⟨rfl, .inl notVf⟩, hflag]
  case result => rw [getV_writeFlagResult, if_neg (fun both => notVf both.1), if_pos rfl, hresult]
  case order =>
    subst isVf
    cases order : s.cfg.vfDestOrder <;> simp [getV_writeFlagResult, order, hflag, hresult]

/-! ### Flags and results as numbers (R131) -/

theorem addFlag_flag_toNat (x y : Byte) :
    (boolByte (addFlag x y).flag).toNat = if x.toNat + y.toNat > 255 then 1 else 0 := by
  simp [boolByte_toNat, addFlag]

theorem subFlag_flag_toNat (x y : Byte) :
    (boolByte (subFlag x y).flag).toNat = if x.toNat > y.toNat then 1 else 0 := by
  simp [boolByte_toNat, subFlag]

theorem subFlag_result_toNat (x y : Byte) : (subFlag x y).result.toNat = (x.toNat + 256 - y.toNat) % 256 := by
  have subtrahend_lt : y.toNat < 256 := y.isLt
  rw [subFlag_result, BitVec.toNat_sub]
  omega

/-- One bit of a byte, as the byte VF receives. -/
theorem boolByte_getLsbD_toNat (b : Byte) (k : Nat) : (boolByte (b.getLsbD k)).toNat = b.toNat / 2 ^ k % 2 := by
  rw [BitVec.getLsbD, ← Nat.toNat_testBit]
  cases b.toNat.testBit k <;> rfl

theorem shrFlag_flag_toNat (b : Byte) : (boolByte (shrFlag b).flag).toNat = b.toNat % 2 := by
  rw [shrFlag, boolByte_getLsbD_toNat, pow_zero, Nat.div_one]

theorem shlFlag_flag_toNat (b : Byte) : (boolByte (shlFlag b).flag).toNat = b.toNat / 128 := by
  have byte_lt : b.toNat < 256 := b.isLt
  rw [shlFlag, boolByte_getLsbD_toNat]
  omega

/-- The number that each choice of `QUIRK_SHIFT` names is the source's (R140, R142). -/
theorem shiftSource_toNat {s : State} {x y : RegIdx} {src : Nat}
    (modern : s.cfg.quirkShift = .modern → src = (getV s x).toNat)
    (cosmac : s.cfg.quirkShift = .cosmac → src = (getV s y).toNat) : (shiftSource s x y).toNat = src := by
  unfold shiftSource
  cases quirk : s.cfg.quirkShift with
  | modern => exact (modern quirk).symm
  | cosmac => exact (cosmac quirk).symm

/-! ### The instructions -/

/-- A bitwise operation's next state: Vx holds `b`, whose bits are known, and nothing else changed but PC. -/
theorem setV_advance_bits {b : Byte} {bit : Nat → Bool} (bits : ∀ k, b.getLsbD k = bit k) (s : State) (x : RegIdx) :
    ∃ t, (.next (setV (advance s) x b) : Result) = .next t ∧ OnlyRegs s t [x] ∧
      ∀ k < 8, (getV t x).getLsbD k = bit k :=
  ⟨_, rfl, onlyRegs_setV_advance s x b, fun k _ => by rw [getV_setV_self, bits]⟩

/-- Settles O17: the words are the encodings, and Vx gets Vy or the bitwise operation's value, whose bits are the
operands' combined one by one. -/
theorem copyAndLogicWriteVx : Obligations.CopyAndLogicWriteVx := fun x y s =>
  ⟨decodeWord_encode (i := .ldReg x y) rfl, decodeWord_encode (i := .orReg x y) rfl,
    decodeWord_encode (i := .andReg x y) rfl, decodeWord_encode (i := .xorReg x y) rfl,
    ⟨_, rfl, getV_setV_self _ x _, onlyRegs_setV_advance s x _⟩,
    setV_advance_bits (fun _ => BitVec.getLsbD_or) s x,
    setV_advance_bits (fun _ => BitVec.getLsbD_and) s x,
    setV_advance_bits (fun _ => BitVec.getLsbD_xor) s x⟩

/-- Settles O18: the word is the encoding, and the two writes of R130 are the carry and the reduced sum. -/
theorem addSetsCarry : Obligations.AddSetsCarry := fun x y s =>
  ⟨decodeWord_encode (i := .addReg x y) rfl, _, rfl,
    flagAndResult_writeFlagResult s x (addFlag_flag_toNat _ _) (addFlag_result_toNat _ _)⟩

/-- Settles O19: the words are the encodings, and SUBN is SUB's subtraction with the operands exchanged. -/
theorem subtractSetsStrictlyGreater : Obligations.SubtractSetsStrictlyGreater := fun x y s =>
  ⟨decodeWord_encode (i := .subReg x y) rfl, decodeWord_encode (i := .subnReg x y) rfl,
    ⟨_, rfl, flagAndResult_writeFlagResult s x (subFlag_flag_toNat _ _) (subFlag_result_toNat _ _)⟩,
    ⟨_, rfl, flagAndResult_writeFlagResult s x (subFlag_flag_toNat _ _) (subFlag_result_toNat _ _)⟩⟩

/-- Settles O20: the words are the encodings, the source is the one the quirk names, and the bit shifted out is its
lowest or its highest. -/
theorem shiftSetsShiftedOutBit : Obligations.ShiftSetsShiftedOutBit := by
  intro x y s
  refine ⟨decodeWord_encode (i := .shr x y) rfl, decodeWord_encode (i := .shl x y) rfl, fun src modern cosmac => ?_⟩
  obtain rfl := shiftSource_toNat modern cosmac
  exact ⟨⟨_, rfl, flagAndResult_writeFlagResult s x (shrFlag_flag_toNat _) (shrFlag_result_toNat _)⟩,
    ⟨_, rfl, flagAndResult_writeFlagResult s x (shlFlag_flag_toNat _) (shlFlag_result_toNat _)⟩⟩

/-- Settles O16: the words are the encodings, and Vx gets the byte or the reduced sum. -/
theorem immediateLoadAndAdd : Obligations.ImmediateLoadAndAdd := fun x nn s =>
  ⟨decodeWord_encode (i := .ldByte x nn) rfl, decodeWord_encode (i := .addByte x nn) rfl,
    ⟨_, rfl, getV_setV_self _ x nn, onlyRegs_setV_advance s x nn⟩,
    ⟨_, rfl, by rw [getV_setV_self, addFlag_result_toNat], onlyRegs_setV_advance s x _⟩⟩

/-- Settles O21: the word is the encoding; what RND does to the registers is one write of Vx, and the draw it used is
counted. -/
theorem randomMasksFreshDraw : Obligations.RandomMasksFreshDraw := by
  intro x nn s
  obtain ⟨pc, -, others, mem⟩ := onlyRegs_setV_advance s x (Config.rndDraw s.draws &&& nn)
  refine ⟨decodeWord_encode (i := .rnd x nn) rfl, _, rfl, rfl, pc, fun k _ => ?bits, rfl, fun r other => ?others, mem⟩
  case bits => rw [getV_takeDraw, getV_setV_self, BitVec.getLsbD_and]
  case others => exact others r (mt List.mem_singleton.1 other)

end Sys2Proof.Machine
end

section
/-! SUPPORT. The instructions that write I, and those that move bytes between the registers or a register's decimal
digits and memory from I on (44_index_memory.md R150 to R156). -/

namespace Sys2Proof.Machine

open Sys2Proof.Safety

/-! ### I after a block -/

/-- I after FX55 or FX65, by `QUIRK_LOAD_STORE` (R154, R155). -/
theorem indexAfterBlock_by_quirk (s : State) (x : RegIdx) :
    (s.cfg.quirkLoadStore = .leave → indexAfterBlock s x = s.index) ∧
      (s.cfg.quirkLoadStore = .increment →
        (indexAfterBlock s x).toNat = (s.index.toNat + x.toNat + 1) % 65536) := by
  refine ⟨fun quirk => ?leave, fun quirk => ?increment⟩ <;> rw [indexAfterBlock, quirk]
  case increment => rfl

theorem index_of_storeRegs {x : RegIdx} {s t : State} (h : exec (.storeRegs x) s = .next t) :
    t.index = indexAfterBlock s x := by
  cases h
  rfl

theorem index_of_loadRegs {x : RegIdx} {s t : State} (h : exec (.loadRegs x) s = .next t) :
    t.index = indexAfterBlock s x := by
  cases h
  rfl

/-! ### Storing -/

/-- FX33 has PC and M as its only fields (R153). -/
theorem ldB_restored {x : RegIdx} {s t : State} (h : exec (.ldB x) s = .next t) :
    { t with pc := s.pc, mem := s.mem } = s := by
  cases h
  rw [writeBytes_unchanged]
  rfl

/-- FX33 leaves every byte but those at I, I + 1 and I + 2 (R153). -/
theorem readByte_of_ldB_outside {x : RegIdx} {s t : State} (h : exec (.ldB x) s = .next t) {a : Nat}
    (outside : ∀ k < 3, a % 4096 ≠ (s.index.toNat + k) % 4096) : readByte t a = readByte s a := by
  cases h
  exact readByte_writeBytes_outside outside

/-- Settles O23: the bytes at I are the digits one by one, whose weighted sum is the byte again. -/
theorem decimalDigitsAreStored : Obligations.DecimalDigitsAreStored := by
  refine fun x s => ⟨decodeWord_encode (i := .ldB x) rfl, fun wf => ?_⟩
  obtain ⟨t, h⟩ : ∃ t, exec (.ldB x) s = .next t := ⟨_, rfl⟩
  have byte_lt : (getV s x).toNat < 256 := (getV s x).isLt
  have hundreds : (readByte t s.index.toNat).toNat = (getV s x).toNat / 100 :=
    (readByte_of_ldB wf h (k := 0) (by decide)).trans (by omega)
  have tens : (readByte t (s.index.toNat + 1)).toNat = (getV s x).toNat / 10 % 10 :=
    readByte_of_ldB wf h (k := 1) (by decide)
  have ones : (readByte t (s.index.toNat + 2)).toNat = (getV s x).toNat % 10 :=
    (readByte_of_ldB wf h (k := 2) (by decide)).trans (by omega)
  exact ⟨t, h, pcAfterEveryInstruction _ _ _ h, ldB_restored h, hundreds, tens, ones, by omega,
    fun _ => readByte_of_ldB_outside h⟩

/-- FX55 has PC, M and I as its only fields (R154). -/
theorem storeRegs_restored {x : RegIdx} {s t : State} (h : exec (.storeRegs x) s = .next t) :
    { t with pc := s.pc, mem := s.mem, index := s.index } = s := by
  cases h
  rw [writeBytes_unchanged]
  rfl

/-- FX55 leaves every byte but those from I to I + X (R154). -/
theorem readByte_of_storeRegs_outside {x : RegIdx} {s t : State} (h : exec (.storeRegs x) s = .next t) {a : Nat}
    (outside : ∀ k ≤ x.toNat, a % 4096 ≠ (s.index.toNat + k) % 4096) : readByte t a = readByte s a := by
  cases h
  refine readByte_writeBytes_outside fun k stored => outside k ?_
  rw [regsUpTo_length] at stored
  exact Nat.le_of_lt_succ stored

/-- Settles O24: the bytes from I on are the registers one by one, and I is the one the quirk gives. -/
theorem registersAreStored : Obligations.RegistersAreStored := by
  refine fun x s => ⟨decodeWord_encode (i := .storeRegs x) rfl, fun wf => ?_⟩
  obtain ⟨t, h⟩ : ∃ t, exec (.storeRegs x) s = .next t := ⟨_, rfl⟩
  refine ⟨t, h, pcAfterEveryInstruction _ _ _ h, storeRegs_restored h, fun _ => readByte_of_storeRegs wf h,
    fun _ => readByte_of_storeRegs_outside h, ?_⟩
  rw [index_of_storeRegs h]
  exact indexAfterBlock_by_quirk s x

/-! ### Loading -/

/-- FX65 has PC, V and I as its only fields (R155). -/
theorem loadRegs_restored {x : RegIdx} {s t : State} (h : exec (.loadRegs x) s = .next t) :
    { t with pc := s.pc, v := s.v, index := s.index } = s := by
  cases h
  rw [setRegsFrom_unchanged]
  rfl

/-- FX65 puts the byte at I + r into V[r], for each r up to X, and leaves the registers past X (R155). -/
theorem getV_of_loadRegs {x : RegIdx} {s t : State} (h : exec (.loadRegs x) s = .next t) (r : RegIdx) :
    getV t r = if r.toNat ≤ x.toNat then readByte s (s.index.toNat + r.toNat) else getV s r := by
  cases h
  simp [getV_setRegsFrom, readBytes_getElem]

/-- Settles O25: the registers up to X are the bytes from I on one by one, memory is not among the fields written, and I
is the one the quirk gives. -/
theorem registersAreLoaded : Obligations.RegistersAreLoaded := by
  refine fun x s => ⟨decodeWord_encode (i := .loadRegs x) rfl, ?_⟩
  obtain ⟨t, h⟩ : ∃ t, exec (.loadRegs x) s = .next t := ⟨_, rfl⟩
  obtain ⟨-, memSame⟩ := memoryChangesOnlyByStores _ _ _ h (by simp) (by simp)
  refine ⟨t, h, pcAfterEveryInstruction _ _ _ h, loadRegs_restored h,
    fun r upToX => by rw [getV_of_loadRegs h, if_pos upToX],
    fun r pastX => by rw [getV_of_loadRegs h, if_neg (Nat.not_le.2 pastX)], memSame, ?_⟩
  rw [index_of_loadRegs h]
  exact indexAfterBlock_by_quirk s x

/-- Settles O26: each byte FX65 loads is the one FX55 stored. -/
theorem storeThenLoadRestores : Obligations.StoreThenLoadRestores := by
  intro x s t u wf stored sameIndex untouched
  obtain ⟨w, loaded⟩ : ∃ w, exec (.loadRegs x) u = .next w := ⟨_, rfl⟩
  refine ⟨w, loaded, fun r upToX => ?_⟩
  calc getV w r
    _ = readByte u (s.index.toNat + r.toNat) := by rw [getV_of_loadRegs loaded, if_pos upToX, sameIndex]
    _ = readByte t (s.index.toNat + r.toNat) := untouched _ upToX
    _ = getV s r := readByte_of_storeRegs wf stored upToX

/-! ### Writing I -/

theorem onlyIndex_setIndex_advance (s : State) (w : Word) : OnlyIndex s (setIndex (advance s) w) :=
  ⟨advance_pc_toNat s, rfl, fun _ => rfl⟩

/-- An instruction that advances PC and writes `w`, whose value is known, to I. -/
theorem setIndex_advance_toNat {w : Word} {n : Nat} (value : w.toNat = n) (s : State) :
    ∃ t, (.next (setIndex (advance s) w) : Result) = .next t ∧ t.index.toNat = n ∧ OnlyIndex s t :=
  ⟨_, rfl, value, onlyIndex_setIndex_advance s w⟩

/-- The glyph address needs no reduction: it is at most 75 (R55, R152). -/
theorem glyphAddr_toNat (b : Byte) : (glyphAddr b).toNat = 5 * (b.toNat % 16) := by
  simp only [glyphAddr, lowNibble, BitVec.toNat_setWidth, BitVec.toNat_ofNat]
  omega

/-- Settles O22: the words are the encodings, and I gets the address, the reduced sum or the glyph's address. -/
theorem indexRegisterWrites : Obligations.IndexRegisterWrites := fun nnn x s =>
  ⟨decodeWord_encode (i := .ldI nnn) rfl, decodeWord_encode (i := .addI x) rfl, decodeWord_encode (i := .ldF x) rfl,
    setIndex_advance_toNat (zext16_toNat nnn) s, setIndex_advance_toNat (BitVec.toNat_ofNat _ 16) s,
    setIndex_advance_toNat (glyphAddr_toNat _) s⟩

end Sys2Proof.Machine
end

section
/-! SUPPORT. The instructions that move a byte between a timer and Vx, the start of a key wait and its poll, and the sound
after a run of tick ends (45_timers_keys.md R160 to R165, R170 to R173). -/

namespace Sys2Proof.Machine

open Sys2Proof.Safety

/-! ### The timers -/

/-- Settles O27: the words are the encodings; FX07 is one write of Vx after the advance, and FX15 and FX18 write no field
but PC and their timer. -/
theorem timersAreReadAndWritten : Obligations.TimersAreReadAndWritten := fun x s =>
  ⟨decodeWord_encode (i := .ldVxDt x) rfl, decodeWord_encode (i := .ldDtVx x) rfl, decodeWord_encode (i := .ldStVx x) rfl,
    ⟨_, rfl, getV_setV_self _ x s.dt, onlyRegs_setV_advance s x s.dt⟩,
    ⟨_, rfl, setDt_dt _ _, advance_pc_toNat s, rfl, readByte_setDt _ _⟩,
    ⟨_, rfl, setSt_st _ _, advance_pc_toNat s, rfl, readByte_setSt _ _⟩⟩

/-- A tick's end sounds when ST was 2 or more: the level is read after the countdown (R170, R172). -/
theorem endTick_soundOn_iff (s : State) : (endTick s).soundOn = true ↔ 1 < s.st.toNat := by
  calc (endTick s).soundOn = true
    _ ↔ (endTick s).st ≠ 0 := (endTick_outputs s).1
    _ ↔ s.st.toNat - 1 ≠ 0 := by rw [BitVec.toNat_ne, endTick_st, countDown_toNat]; rfl
    _ ↔ 1 < s.st.toNat := Nat.sub_ne_zero_iff_lt

/-- After a run of tick ends the sound is on exactly when ST was above their number. -/
theorem endTicks_soundOn_iff (k : Nat) (s : State) : (endTicks (k + 1) s).soundOn = true ↔ k + 1 < s.st.toNat := by
  induction k generalizing s with
  | zero => exact endTick_soundOn_iff s
  | succ k ih =>
    calc (endTicks (k + 1) (endTick s)).soundOn = true
      _ ↔ k + 1 < s.st.toNat - 1 := by rw [ih, endTick_st, countDown_toNat]
      _ ↔ k + 1 + 1 < s.st.toNat := by omega

/-- Settles O31, by induction on the number of tick ends. -/
theorem soundLastsOneTickLess : Obligations.SoundLastsOneTickLess := by
  rintro s _ k rfl
  exact endTicks_soundOn_iff k s

/-! ### The key wait -/

/-- Settles O28: the word is the encoding, and the three fields FX0A writes are those of the wait. -/
theorem keyWaitStarts : Obligations.KeyWaitStarts := fun x _ =>
  ⟨decodeWord_encode (i := .ldVxK x) rfl, _, rfl, rfl, rfl, rfl, rfl, rfl, fun _ => rfl⟩

/-- The set E of R162 is what the poll looks through. -/
theorem mem_newKeys_iff_newlyPressed {s : State} {k : Nibble} : k ∈ newKeys s ↔ newlyPressed s k :=
  mem_newKeys

/-- A key's number as the byte Vx receives. -/
theorem keyByte_toNat (k : Nibble) : (k.setWidth 8).toNat = k.toNat :=
  BitVec.toNat_setWidth_of_le (by decide)

/-- Settles O29: a poll takes one of the newly pressed keys or finds none, and each clause's hypothesis rules the other
outcome out. -/
theorem keyWaitPolls : Obligations.KeyWaitPolls := by
  intro s
  rcases waitPoll_cases s with ⟨k, pressed, completed⟩ | ⟨noKey, pending⟩
  · have pressed : newlyPressed s k := mem_newKeys_iff_newlyPressed.1 pressed
    refine ⟨fun _ => ⟨k, _, pressed, completed, ?key, advance_pc_toNat _, rfl, rfl, fun r other => ?others, rfl,
      fun _ => rfl⟩, fun noKey => absurd pressed (noKey k)⟩
    case key => exact (congrArg BitVec.toNat (getV_setV_self s s.waitX _)).trans (keyByte_toNat k)
    case others => exact getV_setV_ne s _ other
  · refine ⟨fun ⟨k, pressed⟩ => ?_, fun _ => pending⟩
    exact absurd (mem_newKeys_iff_newlyPressed.2 pressed) (noKey ▸ List.not_mem_nil)

end Sys2Proof.Machine
end

section
/-! SUPPORT. What a blit does to the whole grid, as one parallel write, and the two instructions that write G
(46_display.md R180 to R186). -/

namespace Sys2Proof.Machine

open Sys2Proof.Safety

/-! ### One picture XORed into the grid -/

/-- Cell (gy, gx) of the picture whose pixel (i, j) is `lit i j`, drawn at the origin (ox, oy) (R182, R184). -/
def placed (q : ClipQuirk) (ox oy : Nat) (lit : Nat → Nat → Bool) (gy gx : Nat) : Bool :=
  lit ((gy + 32 - oy) % 32) ((gx + 64 - ox) % 64) && (q == .wrap || (decide (ox ≤ gx) && decide (oy ≤ gy)))

/-- From grid and flag `a` to `b` each cell is XORed with its cell of the picture, and the flag is raised where a lit cell
met a lit one (R182, R183). -/
structure XorsPicture (picture : Nat → Nat → Bool) (a b : Grid × Bool) : Prop where
  cells : ∀ gy < 32, ∀ gx < 64, cell b.1 gy gx = (cell a.1 gy gx ^^ picture gy gx)
  flag : b.2 = true ↔ a.2 = true ∨ ∃ gy < 32, ∃ gx < 64, cell a.1 gy gx = true ∧ picture gy gx = true

theorem XorsPicture.of_blank {q : ClipQuirk} {ox oy : Nat} {lit : Nat → Nat → Bool} (blank : ∀ i j, lit i j = false)
    (a : Grid × Bool) : XorsPicture (placed q ox oy lit) a a := by
  constructor <;> simp [placed, blank]

/-- Two pictures without a common pixel, one after the other, are their union drawn at once: the second meets the cells of
its own pixels as they were before the first (R185). -/
theorem XorsPicture.trans {q : ClipQuirk} {ox oy : Nat} {lit first second : Nat → Nat → Bool} {a b c : Grid × Bool}
    (hab : XorsPicture (placed q ox oy first) a b) (hbc : XorsPicture (placed q ox oy second) b c)
    (disjoint : ∀ i j, second i j = true → first i j = false)
    (union : ∀ i j, lit i j = (first i j || second i j)) : XorsPicture (placed q ox oy lit) a c := by
  have apart : ∀ gy gx, placed q ox oy second gy gx = true → placed q ox oy first gy gx = false := fun gy gx h => by
    simp only [placed, Bool.and_eq_true] at h ⊢
    rw [disjoint _ _ h.1, Bool.false_and]
  have together : ∀ gy gx, placed q ox oy lit gy gx = (placed q ox oy first gy gx || placed q ox oy second gy gx) :=
    fun gy gx => by rw [placed, union, Bool.and_or_distrib_right]; rfl
  constructor
  case cells =>
    intro gy hy gx hx
    rw [hbc.cells gy hy gx hx, hab.cells gy hy gx hx, together]
    cases lit : placed q ox oy second gy gx with
    | false => simp
    | true => simp [apart gy gx lit]
  case flag =>
    rw [hbc.flag, hab.flag]
    have met : ∀ gy < 32, ∀ gx < 64, placed q ox oy second gy gx = true → cell b.1 gy gx = cell a.1 gy gx :=
      fun gy hy gx hx h => by rw [hab.cells gy hy gx hx, apart gy gx h, Bool.xor_false]
    grind

/-! ### The pictures of a pixel, of a row and of a sprite, by row i' and column j' of the sprite -/

/-- Pixel (i, j) alone, of value `p`. -/
def pixelPicture (i j : Nat) (p : Bool) (i' j' : Nat) : Bool := decide (i' = i ∧ j' = j) && p

/-- The first `n` pixels of `row`, which is row i: bit 7 is the leftmost (R182). -/
def rowPicture (i n : Nat) (row : Byte) (i' j' : Nat) : Bool := decide (i' = i ∧ j' < n) && row.getLsbD (7 - j')

/-- The rows of a sprite, the first of them row i: bit 7 of each is its leftmost pixel (R182). -/
def spritePicture (i : Nat) (rows : List Byte) (i' j' : Nat) : Bool :=
  decide (i ≤ i' ∧ i' - i < rows.length ∧ j' < 8) && (rows.getD (i' - i) 0).getLsbD (7 - j')

theorem rowPicture_zero (i : Nat) (row : Byte) (i' j' : Nat) : rowPicture i 0 row i' j' = false := by
  simp [rowPicture]

/-- A column more is the columns before it and its own pixel. -/
theorem rowPicture_succ (i n : Nat) (row : Byte) (i' j' : Nat) :
    rowPicture i (n + 1) row i' j' = (rowPicture i n row i' j' || pixelPicture i n (row.getLsbD (7 - n)) i' j') := by
  rcases eq_or_ne j' n with rfl | other
  · simp [rowPicture, pixelPicture]
  · simp [rowPicture, pixelPicture, other, Nat.le_iff_lt_or_eq]

/-- A pixel of column n is none of the columns before it. -/
theorem rowPicture_of_pixelPicture {i n i' j' : Nat} {row : Byte} {p : Bool} (h : pixelPicture i n p i' j' = true) :
    rowPicture i n row i' j' = false := by
  simp only [pixelPicture, Bool.and_eq_true, decide_eq_true_eq] at h
  obtain ⟨⟨-, rfl⟩, -⟩ := h
  simp [rowPicture]

theorem spritePicture_nil (i i' j' : Nat) : spritePicture i [] i' j' = false := by
  simp [spritePicture]

/-- A sprite is its top row and the rows below. -/
theorem spritePicture_cons (i : Nat) (row : Byte) (rows : List Byte) (i' j' : Nat) :
    spritePicture i (row :: rows) i' j' = (rowPicture i 8 row i' j' || spritePicture (i + 1) rows i' j') := by
  rcases lt_trichotomy i' i with above | rfl | below
  · have notFirst : i' ≠ i := above.ne
    have notBelow : ¬ i + 1 ≤ i' := by omega
    simp [spritePicture, rowPicture, above.not_ge, notFirst, notBelow]
  · simp [spritePicture, rowPicture]
  · obtain ⟨d, rfl⟩ := Nat.exists_eq_add_of_le below
    have next : i + 1 + d - i = d + 1 := by omega
    have later : i + 1 + d ≠ i := by omega
    have under : i ≤ i + 1 + d := by omega
    simp [spritePicture, rowPicture, next, later, under]

/-- A pixel of the rows below row i is none of row i. -/
theorem rowPicture_of_spritePicture {i n i' j' : Nat} {row : Byte} {rows : List Byte}
    (h : spritePicture (i + 1) rows i' j' = true) : rowPicture i n row i' j' = false := by
  simp only [spritePicture, Bool.and_eq_true, decide_eq_true_eq] at h
  obtain ⟨⟨below, -⟩, -⟩ := h
  have notFirst : i' ≠ i := (Nat.lt_of_succ_le below).ne'
  simp [rowPicture, notFirst]

/-! ### The blitter's loops -/

/-- The picture of one pixel lights one cell, unless the pixel is clipped: a cell's offset from the origin names the pixel
that lands on it (R182, R184). -/
theorem placed_pixel (q : ClipQuirk) {ox oy i j gy gx : Nat} (p : Bool) (hox : ox < 64) (hoy : oy < 32) (hi : i < 32)
    (hj : j < 64) (hy : gy < 32) (hx : gx < 64) :
    placed q ox oy (pixelPicture i j p) gy gx = true ↔
      (¬ (q = .clip ∧ (64 ≤ ox + j ∨ 32 ≤ oy + i)) ∧ gy % 32 = (oy + i) % 32 ∧ gx % 64 = (ox + j) % 64) ∧ p = true := by
  have offset : ((gy + 32 - oy) % 32 = i ∧ (gx + 64 - ox) % 64 = j) ∧ (q = .wrap ∨ ox ≤ gx ∧ oy ≤ gy) ↔
      ¬ (q = .clip ∧ (64 ≤ ox + j ∨ 32 ≤ oy + i)) ∧ gy % 32 = (oy + i) % 32 ∧ gx % 64 = (ox + j) % 64 := by
    cases q <;> simp <;> omega
  rw [← offset]
  simp [placed, pixelPicture, and_right_comm]

/-- The blitter's pixel (i, j) is the picture of that one pixel. -/
theorem blitPixel_xorsPicture (q : ClipQuirk) {ox oy i j : Nat} (p : Bool) (gc : Grid × Bool) (hox : ox < 64)
    (hoy : oy < 32) (hi : i < 32) (hj : j < 64) :
    XorsPicture (placed q ox oy (pixelPicture i j p)) gc (blitPixel q ox oy i j p gc) := by
  constructor
  case cells =>
    intro gy hy gx hx
    have lit := placed_pixel q p hox hoy hi hj hy hx
    rw [cell_blitPixel]
    split
    · next lands => rw [Bool.eq_iff_iff.2 (lit.trans (and_iff_right lands))]
    · next misses => rw [Bool.eq_false_iff.2 fun h => misses (lit.1 h).1, Bool.xor_false]
  case flag =>
    have row : (oy + i) % 32 < 32 := Nat.mod_lt _ (by decide)
    have column : (ox + j) % 64 < 64 := Nat.mod_lt _ (by decide)
    rw [flag_blitPixel, Bool.or_eq_true]
    refine or_congr_right ⟨fun hit => ?_, fun ⟨gy, hy, gx, hx, old, lit⟩ => ?_⟩
    · simp only [Bool.and_eq_true, Bool.not_eq_true', decide_eq_false_iff_not] at hit
      obtain ⟨⟨shown, lit⟩, old⟩ := hit
      exact ⟨_, row, _, column, (cell_mod _ _ _).trans old,
        (placed_pixel q p hox hoy hi hj row column).2 ⟨⟨shown, Nat.mod_mod _ _, Nat.mod_mod _ _⟩, lit⟩⟩
    · obtain ⟨⟨shown, sameRow, sameColumn⟩, lit⟩ := (placed_pixel q p hox hoy hi hj hy hx).1 lit
      rw [← cell_mod, sameRow, sameColumn, cell_mod] at old
      simp [shown, lit, old]

/-- The first `n` columns of a row, drawn left to right (R182). -/
theorem blitRow_columns_xorsPicture (q : ClipQuirk) {ox oy i : Nat} (row : Byte) (gc : Grid × Bool) (hox : ox < 64)
    (hoy : oy < 32) (hi : i < 32) {n : Nat} (hn : n ≤ 8) :
    XorsPicture (placed q ox oy (rowPicture i n row)) gc
      ((List.range n).foldl (fun gc j => blitPixel q ox oy i j (row.getLsbD (7 - j)) gc) gc) := by
  induction n with
  | zero => exact .of_blank (rowPicture_zero i row) gc
  | succ n ih =>
    rw [List.range_succ, List.foldl_append]
    exact (ih (by omega)).trans (blitPixel_xorsPicture q _ _ hox hoy hi (by omega))
      (fun _ _ => rowPicture_of_pixelPicture) (rowPicture_succ i n row)

theorem blitRow_xorsPicture (q : ClipQuirk) {ox oy i : Nat} (row : Byte) (gc : Grid × Bool) (hox : ox < 64)
    (hoy : oy < 32) (hi : i < 32) :
    XorsPicture (placed q ox oy (rowPicture i 8 row)) gc (blitRow q ox oy i row gc) :=
  blitRow_columns_xorsPicture q row gc hox hoy hi le_rfl

/-- The rows of a sprite, one below the other, are its picture (R182, R185). -/
theorem blitRows_xorsPicture (q : ClipQuirk) {ox oy i : Nat} {rows : List Byte} (gc : Grid × Bool) (hox : ox < 64)
    (hoy : oy < 32) (fits : i + rows.length ≤ 32) :
    XorsPicture (placed q ox oy (spritePicture i rows)) gc (blitRows q ox oy i rows gc) := by
  induction rows generalizing i gc with
  | nil => exact .of_blank (spritePicture_nil i) gc
  | cons row rows ih =>
    rw [List.length_cons] at fits
    exact (blitRow_xorsPicture q row gc hox hoy (by omega)).trans (ih _ (by omega))
      (fun _ _ => rowPicture_of_spritePicture) (spritePicture_cons i row rows)

/-- A blit is the parallel write of the sprite's picture (R185). -/
theorem blit_xorsPicture (q : ClipQuirk) (x y : Byte) {sprite : List Byte} (g : Grid) (short : sprite.length ≤ 15) :
    XorsPicture (spritePixel q x y sprite) (g, false) (blit q x y sprite g) := by
  have picture : placed q (x.toNat % 64) (y.toNat % 32) (spritePicture 0 sprite) = spritePixel q x y sprite := by
    funext gy gx
    simp [placed, spritePicture, spritePixel]
  rw [← picture]
  exact blitRows_xorsPicture q _ (Nat.mod_lt _ (by decide)) (Nat.mod_lt _ (by decide)) (by omega)

theorem cell_blit (q : ClipQuirk) (x y : Byte) {sprite : List Byte} (g : Grid) (short : sprite.length ≤ 15) {gy gx : Nat}
    (hy : gy < 32) (hx : gx < 64) :
    cell (blit q x y sprite g).1 gy gx = (cell g gy gx ^^ spritePixel q x y sprite gy gx) :=
  (blit_xorsPicture q x y g short).cells gy hy gx hx

/-- The collision flag is up exactly when a lit pixel landed on a lit cell (R183). -/
theorem flag_blit (q : ClipQuirk) (x y : Byte) {sprite : List Byte} (g : Grid) (short : sprite.length ≤ 15) :
    (blit q x y sprite g).2 = true ↔
      ∃ gy < 32, ∃ gx < 64, cell g gy gx = true ∧ spritePixel q x y sprite gy gx = true := by
  simpa using (blit_xorsPicture q x y g short).flag

/-! ### The statements -/

/-- Settles O34: XOR undoes itself, and a pixel is lit over a cell lit by the first blit exactly when that cell was 0. -/
theorem doubleBlitRestoresGrid : Obligations.DoubleBlitRestoresGrid := by
  intro q x y sprite g short
  refine ⟨Grid.ext_cell fun gy hy gx hx => ?_, ?_⟩
  · rw [cell_blit q x y _ short hy hx, cell_blit q x y g short hy hx, Bool.xor_assoc, Bool.xor_self, Bool.xor_false]
  · rw [flag_blit q x y _ short]
    refine exists_congr fun gy => and_congr_right fun hy => exists_congr fun gx => and_congr_right fun hx => ?_
    rw [cell_blit q x y g short hy hx]
    cases cell g gy gx <;> simp

/-- Settles O33: the word is the encoding, and the blit is the parallel write of the sprite's picture. -/
theorem drawXorsSpriteAndReportsCollision : Obligations.DrawXorsSpriteAndReportsCollision := by
  intro x y n s
  have short : (readBytes s s.index.toNat n.toNat).length ≤ 15 := by
    rw [readBytes_length]
    exact Nat.le_of_lt_succ n.isLt
  have flag := flag_blit s.cfg.quirkClip (getV s x) (getV s y) s.grid short
  refine ⟨decodeWord_encode (i := .drw x y n) rfl, _, rfl, advance_pc_toNat s, rfl, fun r other => getV_setV_ne _ _ other,
    fun _ => rfl, fun gy hy gx hx => cell_blit _ _ _ _ short hy hx, fun hit => ?hit, fun miss => ?miss⟩
  case hit => exact (getV_setV_self _ _ _).trans (congrArg boolByte (flag.2 hit))
  case miss =>
    refine (getV_setV_self _ _ _).trans (congrArg boolByte (Bool.eq_false_iff.2 fun up => ?_))
    obtain ⟨gy, hy, gx, hx, met⟩ := flag.1 up
    exact miss gy hy gx hx met

/-- Settles O32: the blank grid is the only field written but PC. -/
theorem clearScreenBlanksGrid : Obligations.ClearScreenBlanksGrid :=
  ⟨rfl, fun s => ⟨_, rfl, advance_pc_toNat s, fun y _ x _ => cell_blank y x, rfl, fun _ => rfl⟩⟩

end Sys2Proof.Machine
end

section
/-! SUPPORT. Which instructions can fault, CALL and RET past the stack's limit, and the program image in memory
(60_exceptions.md R204 and R205, 10_state.md section 4, 70_reset_and_hazards.md R222). -/

namespace Sys2Proof.Machine

/-! ### Faults of the stack -/

/-- Settles O55: CALL and RET enter FAULT at their limit alone, FX0A enters WAIT_KEY, and no other update has the status
among its fields. -/
theorem onlyTheStackFaults : Obligations.OnlyTheStackFaults := by
  intro i s t h running fault
  cases i
  case call nnn =>
    rcases execCall_cases h with ⟨_, rfl⟩ | ⟨full, -⟩
    · exact absurd fault running
    · exact .inl ⟨⟨nnn, rfl⟩, congrArg BitVec.toNat full⟩
  case ret =>
    rcases execRet_cases h with ⟨_, rfl⟩ | ⟨empty, -⟩
    · exact absurd fault running
    · exact .inr ⟨rfl, congrArg BitVec.toNat empty⟩
  case ldVxK x =>
    cases h
    cases fault
  all_goals
    cases h
    exact absurd (by simpa using fault) running

/-- Past 16 entries CALL has no room and is not at its limit (log entry 8). -/
theorem execCall_of_beyond (nnn : Addr) {s : State} (beyond : 16 < s.sp.toNat) :
    execCall nnn s = .fault .stackDepthOutOfRange := by
  have notFull : (s.sp == 16) = false := beq_false_of_ne fun full => beyond.ne' (congrArg BitVec.toNat full)
  have noRoom : push (advance s) (advance s).pc = none := push_eq_none.2 beyond.le
  rw [execCall, noRoom, notFull]
  rfl

/-- Past 16 entries RET has no entry to take and is not at its limit (log entry 8). -/
theorem execRet_of_beyond {s : State} (beyond : 16 < s.sp.toNat) : execRet s = .fault .stackDepthOutOfRange := by
  have notEmpty : (s.sp == 0) = false := beq_false_of_ne fun empty => beyond.not_ge (by simp [empty])
  have noEntry : pop (advance s) = none := pop_eq_none.2 (.inr beyond)
  rw [execRet, noEntry, notEmpty]
  rfl

/-- Settles O11: past the limit neither instruction finds the entry it needs, nor the depth at which the CORE faults. -/
theorem stackDepthOutOfRangeStops : Obligations.StackDepthOutOfRangeStops := fun nnn _ beyond =>
  ⟨execCall_of_beyond nnn beyond, execRet_of_beyond beyond⟩

/-! ### The program image -/

/-- Settles O59: the image is a run of writes from 0x200 that ends within M, so no address of it wraps. -/
theorem loadPlacesImage : Obligations.LoadPlacesImage := by
  intro s image wf fits
  refine ⟨fun k stored => readByte_writeBytes_inside wf (by omega) stored, fun a inM outside => ?_,
    writeBytes_mem_restored s 0x200 image⟩
  have notCovered : ∀ k < image.length, a % 4096 ≠ (0x200 + k) % 4096 := by omega
  exact readByte_writeBytes_outside notCovered

end Sys2Proof.Machine
end
